-- ==== Sys2Proof/Word.lean ====
section
/-!
DEFINITION. The machine's words: a vector register as its 128-bit sub-blocks (spec/00_scope.md R10, R13;
spec/20_memory.md R29), register indices, flag sets, and the plainest operations on them.
-/

namespace Sys2Proof

/-- One 128-bit sub-block of a vector register (R13). -/
abbrev Block := BitVec 128

/-- A vector register value. Sub-block `j` of the value is bits `[128*j + 127 : 128*j]` (R10, R29): `b0` is the
least significant. Storage is always four sub-blocks wide; on a machine with MAXVL = 256 (R7) the two upper ones do not
exist and are held at zero (assumption log 2, DESIGN CHOICE). -/
structure VecWord where
  b0 : Block
  b1 : Block
  b2 : Block
  b3 : Block
deriving DecidableEq, Repr, Inhabited

/-- A vector register index (descriptor fields DST, SRC1, SRC2: R38). -/
abbrev VReg := BitVec 5

/-- A write-mask register index (descriptor field KSEL: R38). -/
abbrev KReg := BitVec 3

/-- Six status flags or masks; bit 0 IE, 1 DE, 2 ZE, 3 OE, 4 UE, 5 PE (R14, R52). -/
abbrev FlagSet := BitVec 6

/-- The all-zero vector value. -/
def VecWord.zero : VecWord := ⟨0, 0, 0, 0⟩

/-- Sub-block `j`; the value has four, and an index past them reads zero. -/
def VecWord.block (v : VecWord) : Nat → Block
  | 0 => v.b0
  | 1 => v.b1
  | 2 => v.b2
  | 3 => v.b3
  | _ + 4 => 0

/-- The value as one 512-bit word (R10). -/
def VecWord.toBits (v : VecWord) : BitVec 512 := v.b3 ++ v.b2 ++ v.b1 ++ v.b0

/-- The sub-blocks of a 512-bit word (R10). -/
def VecWord.ofBits (v : BitVec 512) : VecWord :=
  ⟨v.extractLsb' 0 128, v.extractLsb' 128 128, v.extractLsb' 256 128, v.extractLsb' 384 128⟩

end Sys2Proof
end

