-- ==== Sys2Proof/Config.lean ====
section
/-!
DEFINITION. The implementation parameters of spec/00_scope.md R7 and the free values. A parameter is an argument of the
model: it is a field of `Params`, every state carries one `Params`, and no step changes it (spec/70_reset_and_hazards.md R228).
What is a function or a value the spec leaves entirely open is an opaque constant with no body.
-/

namespace Sys2Proof

/-- MAXVL, the physical width of a vector register (R7, decision D24): OPEN. -/
inductive MaxVL
  | w256
  | w512
deriving DecidableEq, Repr, Inhabited

/-- NVREG, the number of vector registers (R7, decision D24): OPEN. -/
inductive RegCount
  | n16
  | n32
deriving DecidableEq, Repr, Inhabited

/-- P_TININESS (R7, R64, decision D18): OPEN. -/
inductive Tininess
  | after
  | before
deriving DecidableEq, Repr, Inhabited

/-- P_SCALEF_QNAN_INF (R7, R135, decision D20): OPEN. -/
inductive QnanInf
  | firstNan
  | draw
deriving DecidableEq, Repr, Inhabited

/-- The parameters of R7 that are plain data, each OPEN. NKREG is fixed at 8 (R7). -/
structure Params where
  /-- `MAXVL` -/
  maxvl : MaxVL
  /-- `NVREG` -/
  nvreg : RegCount
  /-- `P_TININESS` -/
  tininess : Tininess
  /-- `P_DE_WITH_ZE` -/
  deWithZe : Bool
  /-- `P_DE_WITH_SQRT_INVALID` -/
  deWithSqrtInvalid : Bool
  /-- `P_ROUND_DAZ` -/
  roundDaz : Bool
  /-- `P_SCALEF_QNAN_INF` -/
  scalefQnanInf : QnanInf
  /-- `P_SCALEF_DE_B` -/
  scalefDeB : Bool
  /-- `P_CORE_FILTER` -/
  coreFilter : Bool
deriving DecidableEq, Repr, Inhabited

/-- MAXVL in bits. -/
def MaxVL.bits : MaxVL → Nat
  | .w256 => 256
  | .w512 => 512

/-- The parameters with the widest registers and the most of them: a descriptor legal under any parameters is legal
under these (R45 reads no parameter but MAXVL and NVREG). -/
def Params.widest : Params :=
  { maxvl := .w512, nvreg := .n32, tininess := .after, deWithZe := false, deWithSqrtInvalid := false,
    roundDaz := false, scalefQnanInf := .firstNan, scalefDeB := false, coreFilter := true }

namespace Config

/-- The parameters of the machine that `State.reset` describes. They are OPEN (R7), so nothing is known of them.
Assumption log 1 (DESIGN CHOICE). -/
opaque params : Params

/-- A free value: what the implementation's RCP32 answers on a positive normal binary32 pattern (R194, decision D17). The
model uses it only where it has the properties R194 states (`Machine.rcp32`). Assumption log 5 (DESIGN CHOICE). -/
opaque rcp32Raw : BitVec 32 → BitVec 32

/-- A free value: what the implementation's RSQRT32 answers on a positive normal binary32 pattern (R195, decision D17). The
model uses it only where it has the properties R195 states (`Machine.rsqrt32`). Assumption log 5 (DESIGN CHOICE). -/
opaque rsqrt32Raw : BitVec 32 → BitVec 32

/-- A free value: the n-th lane drawn under `P_SCALEF_QNAN_INF = draw` (R135, U13). A lane of width w takes its low w bits.
Assumption log 6 (DESIGN CHOICE). -/
opaque freeLane : Nat → BitVec 64

end Config

end Sys2Proof
end

