-- ==== Sys2Proof/Syntax.lean ====
section
/-!
DEFINITION. The instructions as syntax: one constructor of `Instr` for each row of spec/opcode_table.json, with the operands
the row's descriptor carries (spec/30_encoding.md R38, R45, R47).
-/

namespace Sys2Proof

/-- The four rounding modes (R61): to nearest even, down, up, toward zero. -/
inductive RoundMode
  | rn
  | rd
  | ru
  | rz
deriving DecidableEq, Repr, Inhabited

/-- The vector-length classes (R8, R38 field VL). -/
inductive VLen
  | v128
  | v256
  | v512
deriving DecidableEq, Repr, Inhabited

/-- Where operand B comes from (R38 fields MEM, SRC2; R14): a vector register, or the memory operand value `Bmem` that
the core supplies with the call. -/
inductive Src
  | reg (r : VReg)
  | mem
deriving DecidableEq, Repr, Inhabited

/-- What only an EVEX form has (R38, R47): the embedded rounding override (RCV with RCM, or none), SAE, the zeroing bit KZ
and the write-mask register index KSEL (0: no mask). -/
structure Evex where
  rc : Option RoundMode
  sae : Bool
  kz : Bool
  ksel : KReg
deriving DecidableEq, Repr, Inhabited

/-- No override, no SAE, no mask: what a VEX form has (R47). -/
def Evex.plain : Evex := { rc := none, sae := false, kz := false, ksel := 0 }

/-- The instructions. Legacy (SSE) forms name DST, which is also SRC1, and operand B; non-legacy (VEX, EVEX) forms name what
their row leaves free of VL, the EVEX fields, DST, SRC1 and operand B (R45, R47); `imm` is IMM8 whole (R41 to R43), the bits
an instruction ignores among it (R46). -/
inductive Instr
  /-- `ADDPS` (R101) -/
  | addps (dst : VReg) (src : Src)
  /-- `ADDPD` (R102) -/
  | addpd (dst : VReg) (src : Src)
  /-- `ADDSS` (R103) -/
  | addss (dst : VReg) (src : Src)
  /-- `ADDSD` (R104) -/
  | addsd (dst : VReg) (src : Src)
  /-- `VADDPS` (R105) -/
  | vaddps (vl : VLen) (ev : Evex) (dst src1 : VReg) (src2 : Src)
  /-- `VADDPD` (R106) -/
  | vaddpd (vl : VLen) (ev : Evex) (dst src1 : VReg) (src2 : Src)
  /-- `VADDSS` (R107) -/
  | vaddss (ev : Evex) (dst src1 : VReg) (src2 : Src)
  /-- `VADDSD` (R108) -/
  | vaddsd (ev : Evex) (dst src1 : VReg) (src2 : Src)
  /-- `SUBPS` (R109) -/
  | subps (dst : VReg) (src : Src)
  /-- `SUBPD` (R110) -/
  | subpd (dst : VReg) (src : Src)
  /-- `SUBSS` (R111) -/
  | subss (dst : VReg) (src : Src)
  /-- `SUBSD` (R112) -/
  | subsd (dst : VReg) (src : Src)
  /-- `VSUBPS` (R113) -/
  | vsubps (vl : VLen) (ev : Evex) (dst src1 : VReg) (src2 : Src)
  /-- `VSUBPD` (R114) -/
  | vsubpd (vl : VLen) (ev : Evex) (dst src1 : VReg) (src2 : Src)
  /-- `VSUBSS` (R115) -/
  | vsubss (ev : Evex) (dst src1 : VReg) (src2 : Src)
  /-- `VSUBSD` (R116) -/
  | vsubsd (ev : Evex) (dst src1 : VReg) (src2 : Src)
  /-- `MULPS` (R117) -/
  | mulps (dst : VReg) (src : Src)
  /-- `MULPD` (R118) -/
  | mulpd (dst : VReg) (src : Src)
  /-- `MULSS` (R119) -/
  | mulss (dst : VReg) (src : Src)
  /-- `MULSD` (R120) -/
  | mulsd (dst : VReg) (src : Src)
  /-- `VMULPS` (R121) -/
  | vmulps (vl : VLen) (ev : Evex) (dst src1 : VReg) (src2 : Src)
  /-- `VMULPD` (R122) -/
  | vmulpd (vl : VLen) (ev : Evex) (dst src1 : VReg) (src2 : Src)
  /-- `VMULSS` (R123) -/
  | vmulss (ev : Evex) (dst src1 : VReg) (src2 : Src)
  /-- `VMULSD` (R124) -/
  | vmulsd (ev : Evex) (dst src1 : VReg) (src2 : Src)
  /-- `DIVPS` (R125) -/
  | divps (dst : VReg) (src : Src)
  /-- `DIVPD` (R126) -/
  | divpd (dst : VReg) (src : Src)
  /-- `DIVSS` (R127) -/
  | divss (dst : VReg) (src : Src)
  /-- `DIVSD` (R128) -/
  | divsd (dst : VReg) (src : Src)
  /-- `VDIVPS` (R129) -/
  | vdivps (vl : VLen) (ev : Evex) (dst src1 : VReg) (src2 : Src)
  /-- `VDIVPD` (R130) -/
  | vdivpd (vl : VLen) (ev : Evex) (dst src1 : VReg) (src2 : Src)
  /-- `VDIVSS` (R131) -/
  | vdivss (ev : Evex) (dst src1 : VReg) (src2 : Src)
  /-- `VDIVSD` (R132) -/
  | vdivsd (ev : Evex) (dst src1 : VReg) (src2 : Src)
  /-- `MINPS` (R136) -/
  | minps (dst : VReg) (src : Src)
  /-- `MINPD` (R137) -/
  | minpd (dst : VReg) (src : Src)
  /-- `MINSS` (R138) -/
  | minss (dst : VReg) (src : Src)
  /-- `MINSD` (R139) -/
  | minsd (dst : VReg) (src : Src)
  /-- `VMINPS` (R140) -/
  | vminps (vl : VLen) (ev : Evex) (dst src1 : VReg) (src2 : Src)
  /-- `VMINPD` (R141) -/
  | vminpd (vl : VLen) (ev : Evex) (dst src1 : VReg) (src2 : Src)
  /-- `VMINSS` (R142) -/
  | vminss (ev : Evex) (dst src1 : VReg) (src2 : Src)
  /-- `VMINSD` (R143) -/
  | vminsd (ev : Evex) (dst src1 : VReg) (src2 : Src)
  /-- `MAXPS` (R144) -/
  | maxps (dst : VReg) (src : Src)
  /-- `MAXPD` (R145) -/
  | maxpd (dst : VReg) (src : Src)
  /-- `MAXSS` (R146) -/
  | maxss (dst : VReg) (src : Src)
  /-- `MAXSD` (R147) -/
  | maxsd (dst : VReg) (src : Src)
  /-- `VMAXPS` (R148) -/
  | vmaxps (vl : VLen) (ev : Evex) (dst src1 : VReg) (src2 : Src)
  /-- `VMAXPD` (R149) -/
  | vmaxpd (vl : VLen) (ev : Evex) (dst src1 : VReg) (src2 : Src)
  /-- `VMAXSS` (R150) -/
  | vmaxss (ev : Evex) (dst src1 : VReg) (src2 : Src)
  /-- `VMAXSD` (R151) -/
  | vmaxsd (ev : Evex) (dst src1 : VReg) (src2 : Src)
  /-- `SQRTPS` (R152) -/
  | sqrtps (dst : VReg) (src : Src)
  /-- `SQRTPD` (R153) -/
  | sqrtpd (dst : VReg) (src : Src)
  /-- `SQRTSS` (R154) -/
  | sqrtss (dst : VReg) (src : Src)
  /-- `SQRTSD` (R155) -/
  | sqrtsd (dst : VReg) (src : Src)
  /-- `VSQRTPS` (R156) -/
  | vsqrtps (vl : VLen) (ev : Evex) (dst : VReg) (src : Src)
  /-- `VSQRTPD` (R157) -/
  | vsqrtpd (vl : VLen) (ev : Evex) (dst : VReg) (src : Src)
  /-- `VSQRTSS` (R158) -/
  | vsqrtss (ev : Evex) (dst src1 : VReg) (src2 : Src)
  /-- `VSQRTSD` (R159) -/
  | vsqrtsd (ev : Evex) (dst src1 : VReg) (src2 : Src)
  /-- `VSCALEFPS` (R160) -/
  | vscalefps (vl : VLen) (ev : Evex) (dst src1 : VReg) (src2 : Src)
  /-- `VSCALEFPD` (R161) -/
  | vscalefpd (vl : VLen) (ev : Evex) (dst src1 : VReg) (src2 : Src)
  /-- `VSCALEFSS` (R162) -/
  | vscalefss (ev : Evex) (dst src1 : VReg) (src2 : Src)
  /-- `VSCALEFSD` (R163) -/
  | vscalefsd (ev : Evex) (dst src1 : VReg) (src2 : Src)
  /-- `ROUNDPS` (R168) -/
  | roundps (dst : VReg) (src : Src) (imm : BitVec 8)
  /-- `ROUNDPD` (R169) -/
  | roundpd (dst : VReg) (src : Src) (imm : BitVec 8)
  /-- `ROUNDSS` (R170) -/
  | roundss (dst : VReg) (src : Src) (imm : BitVec 8)
  /-- `ROUNDSD` (R171) -/
  | roundsd (dst : VReg) (src : Src) (imm : BitVec 8)
  /-- `VROUNDPS` (R172) -/
  | vroundps (vl : VLen) (dst : VReg) (src : Src) (imm : BitVec 8)
  /-- `VROUNDPD` (R173) -/
  | vroundpd (vl : VLen) (dst : VReg) (src : Src) (imm : BitVec 8)
  /-- `VROUNDSS` (R174) -/
  | vroundss (dst src1 : VReg) (src2 : Src) (imm : BitVec 8)
  /-- `VROUNDSD` (R175) -/
  | vroundsd (dst src1 : VReg) (src2 : Src) (imm : BitVec 8)
  /-- `HADDPS` (R176) -/
  | haddps (dst : VReg) (src : Src)
  /-- `HADDPD` (R177) -/
  | haddpd (dst : VReg) (src : Src)
  /-- `VHADDPS` (R178) -/
  | vhaddps (vl : VLen) (dst src1 : VReg) (src2 : Src)
  /-- `VHADDPD` (R179) -/
  | vhaddpd (vl : VLen) (dst src1 : VReg) (src2 : Src)
  /-- `HSUBPS` (R180) -/
  | hsubps (dst : VReg) (src : Src)
  /-- `HSUBPD` (R181) -/
  | hsubpd (dst : VReg) (src : Src)
  /-- `VHSUBPS` (R182) -/
  | vhsubps (vl : VLen) (dst src1 : VReg) (src2 : Src)
  /-- `VHSUBPD` (R183) -/
  | vhsubpd (vl : VLen) (dst src1 : VReg) (src2 : Src)
  /-- `ADDSUBPS` (R184) -/
  | addsubps (dst : VReg) (src : Src)
  /-- `ADDSUBPD` (R185) -/
  | addsubpd (dst : VReg) (src : Src)
  /-- `VADDSUBPS` (R186) -/
  | vaddsubps (vl : VLen) (dst src1 : VReg) (src2 : Src)
  /-- `VADDSUBPD` (R187) -/
  | vaddsubpd (vl : VLen) (dst src1 : VReg) (src2 : Src)
  /-- `CMPPS` (R77) -/
  | cmpps (dst : VReg) (src : Src) (imm : BitVec 8)
  /-- `CMPPD` (R78) -/
  | cmppd (dst : VReg) (src : Src) (imm : BitVec 8)
  /-- `CMPSS` (R79) -/
  | cmpss (dst : VReg) (src : Src) (imm : BitVec 8)
  /-- `CMPSD` (R80) -/
  | cmpsd (dst : VReg) (src : Src) (imm : BitVec 8)
  /-- `VCMPPS` (R81) -/
  | vcmpps (vl : VLen) (dst src1 : VReg) (src2 : Src) (imm : BitVec 8)
  /-- `VCMPPD` (R82) -/
  | vcmppd (vl : VLen) (dst src1 : VReg) (src2 : Src) (imm : BitVec 8)
  /-- `VCMPSS` (R83) -/
  | vcmpss (dst src1 : VReg) (src2 : Src) (imm : BitVec 8)
  /-- `VCMPSD` (R84) -/
  | vcmpsd (dst src1 : VReg) (src2 : Src) (imm : BitVec 8)
  /-- `DPPS` (R191) -/
  | dpps (dst : VReg) (src : Src) (imm : BitVec 8)
  /-- `VDPPS` (R192) -/
  | vdpps (vl : VLen) (dst src1 : VReg) (src2 : Src) (imm : BitVec 8)
  /-- `RCPPS` (R196) -/
  | rcpps (dst : VReg) (src : Src)
  /-- `RCPSS` (R197) -/
  | rcpss (dst : VReg) (src : Src)
  /-- `VRCPPS` (R198) -/
  | vrcpps (vl : VLen) (dst : VReg) (src : Src)
  /-- `VRCPSS` (R199) -/
  | vrcpss (dst src1 : VReg) (src2 : Src)
  /-- `RSQRTPS` (R200) -/
  | rsqrtps (dst : VReg) (src : Src)
  /-- `RSQRTSS` (R201) -/
  | rsqrtss (dst : VReg) (src : Src)
  /-- `VRSQRTPS` (R202) -/
  | vrsqrtps (vl : VLen) (dst : VReg) (src : Src)
  /-- `VRSQRTSS` (R203) -/
  | vrsqrtss (dst src1 : VReg) (src2 : Src)
  /-- `VTESTPS` (R206) -/
  | vtestps (vl : VLen) (src1 : VReg) (src2 : Src)
  /-- `VTESTPD` (R207) -/
  | vtestpd (vl : VLen) (src1 : VReg) (src2 : Src)
deriving DecidableEq, Repr

end Sys2Proof
end

