-- ==== Sys2Proof/WellFormed.lean ====
section
/-!
DEFINITION. Which terms of `Instr` are instructions: the operand values that the descriptor legality rule
(spec/30_encoding.md R45) admits, stated over the syntax and not through the encoder. `Instr.wellFormed` is what every machine
asks; `Instr.fits` is what the parameters MAXVL and NVREG ask beside it.
-/

namespace Sys2Proof

/-- The index names one of the first sixteen registers (REG_RANGE_LEGACY, REG_RANGE_VEX). -/
def VReg.low (r : VReg) : Bool := decide (r.toNat < 16)

/-- Every register operand B names is one of the first sixteen. -/
def Src.low : Src → Bool
  | .reg r => VReg.low r
  | .mem => true

/-- Zeroing needs a mask (ZEROING_WITHOUT_MASK). -/
def Evex.maskOk (ev : Evex) : Bool := !ev.kz || ev.ksel != 0

/-- No rounding override (NO_ROUNDING_OVERRIDE: MIN and MAX). -/
def Evex.noRounding (ev : Evex) : Bool := ev.rc.isNone

/-- A VEX-only form has no 512-bit length (NO_512_FORM). -/
def VLen.vex (vl : VLen) : Bool := vl != .v512

/-- The operands are such that the instruction has a legal descriptor on a machine with MAXVL = 512 and NVREG = 32 (R45). -/
def Instr.wellFormed : Instr → Bool
  | .addps dst src | .addpd dst src | .addss dst src | .addsd dst src
  | .subps dst src | .subpd dst src | .subss dst src | .subsd dst src
  | .mulps dst src | .mulpd dst src | .mulss dst src | .mulsd dst src
  | .divps dst src | .divpd dst src | .divss dst src | .divsd dst src
  | .minps dst src | .minpd dst src | .minss dst src | .minsd dst src
  | .maxps dst src | .maxpd dst src | .maxss dst src | .maxsd dst src
  | .sqrtps dst src | .sqrtpd dst src | .sqrtss dst src | .sqrtsd dst src
  | .haddps dst src | .haddpd dst src | .hsubps dst src | .hsubpd dst src
  | .addsubps dst src | .addsubpd dst src | .rcpps dst src | .rcpss dst src
  | .rsqrtps dst src | .rsqrtss dst src =>
    VReg.low dst && src.low
  | .roundps dst src _ | .roundpd dst src _ | .roundss dst src _ | .roundsd dst src _
  | .cmpps dst src _ | .cmppd dst src _ | .cmpss dst src _ | .cmpsd dst src _
  | .dpps dst src _ =>
    VReg.low dst && src.low
  | .vaddps _ ev _ _ _ | .vaddpd _ ev _ _ _ | .vsubps _ ev _ _ _ | .vsubpd _ ev _ _ _
  | .vmulps _ ev _ _ _ | .vmulpd _ ev _ _ _ | .vdivps _ ev _ _ _ | .vdivpd _ ev _ _ _
  | .vscalefps _ ev _ _ _ | .vscalefpd _ ev _ _ _ =>
    ev.maskOk
  | .vminps _ ev _ _ _ | .vminpd _ ev _ _ _ | .vmaxps _ ev _ _ _ | .vmaxpd _ ev _ _ _ =>
    ev.maskOk && ev.noRounding
  | .vsqrtps _ ev _ _ | .vsqrtpd _ ev _ _ =>
    ev.maskOk
  | .vaddss ev _ _ _ | .vaddsd ev _ _ _ | .vsubss ev _ _ _ | .vsubsd ev _ _ _
  | .vmulss ev _ _ _ | .vmulsd ev _ _ _ | .vdivss ev _ _ _ | .vdivsd ev _ _ _
  | .vsqrtss ev _ _ _ | .vsqrtsd ev _ _ _ | .vscalefss ev _ _ _ | .vscalefsd ev _ _ _ =>
    ev.maskOk
  | .vminss ev _ _ _ | .vminsd ev _ _ _ | .vmaxss ev _ _ _ | .vmaxsd ev _ _ _ =>
    ev.maskOk && ev.noRounding
  | .vhaddps vl dst src1 src2 | .vhaddpd vl dst src1 src2 | .vhsubps vl dst src1 src2 | .vhsubpd vl dst src1 src2
  | .vaddsubps vl dst src1 src2 | .vaddsubpd vl dst src1 src2 =>
    vl.vex && VReg.low dst && VReg.low src1 && src2.low
  | .vcmpps vl dst src1 src2 _ | .vcmppd vl dst src1 src2 _ | .vdpps vl dst src1 src2 _ =>
    vl.vex && VReg.low dst && VReg.low src1 && src2.low
  | .vrcpps vl dst src | .vrsqrtps vl dst src =>
    vl.vex && VReg.low dst && src.low
  | .vroundps vl dst src _ | .vroundpd vl dst src _ =>
    vl.vex && VReg.low dst && src.low
  | .vrcpss dst src1 src2 | .vrsqrtss dst src1 src2 =>
    VReg.low dst && VReg.low src1 && src2.low
  | .vroundss dst src1 src2 _ | .vroundsd dst src1 src2 _ | .vcmpss dst src1 src2 _ | .vcmpsd dst src1 src2 _ =>
    VReg.low dst && VReg.low src1 && src2.low
  | .vtestps vl src1 src2 | .vtestpd vl src1 src2 =>
    vl.vex && VReg.low src1 && src2.low

/-- The parameters have the vector length (VL_EXCEEDS_MAXVL). -/
def Params.hasLength (p : Params) (vl : VLen) : Bool := vl != .v512 || p.maxvl == .w512

/-- The parameters have the register (REG_RANGE; an index has five bits). -/
def Params.hasReg (p : Params) (r : VReg) : Bool := VReg.low r || p.nvreg == .n32

/-- The parameters have the register operand B names, if it names one. -/
def Params.hasSrc (p : Params) : Src → Bool
  | .reg r => p.hasReg r
  | .mem => true

/-- The parameters have the vector length and every register the instruction names (R45). -/
def Instr.fits (p : Params) : Instr → Bool
  | .addps dst src | .addpd dst src | .addss dst src | .addsd dst src
  | .subps dst src | .subpd dst src | .subss dst src | .subsd dst src
  | .mulps dst src | .mulpd dst src | .mulss dst src | .mulsd dst src
  | .divps dst src | .divpd dst src | .divss dst src | .divsd dst src
  | .minps dst src | .minpd dst src | .minss dst src | .minsd dst src
  | .maxps dst src | .maxpd dst src | .maxss dst src | .maxsd dst src
  | .sqrtps dst src | .sqrtpd dst src | .sqrtss dst src | .sqrtsd dst src
  | .haddps dst src | .haddpd dst src | .hsubps dst src | .hsubpd dst src
  | .addsubps dst src | .addsubpd dst src | .rcpps dst src | .rcpss dst src
  | .rsqrtps dst src | .rsqrtss dst src =>
    p.hasReg dst && p.hasSrc src
  | .roundps dst src _ | .roundpd dst src _ | .roundss dst src _ | .roundsd dst src _
  | .cmpps dst src _ | .cmppd dst src _ | .cmpss dst src _ | .cmpsd dst src _
  | .dpps dst src _ =>
    p.hasReg dst && p.hasSrc src
  | .vaddps vl _ dst src1 src2 | .vaddpd vl _ dst src1 src2 | .vsubps vl _ dst src1 src2 | .vsubpd vl _ dst src1 src2
  | .vmulps vl _ dst src1 src2 | .vmulpd vl _ dst src1 src2 | .vdivps vl _ dst src1 src2 | .vdivpd vl _ dst src1 src2
  | .vminps vl _ dst src1 src2 | .vminpd vl _ dst src1 src2 | .vmaxps vl _ dst src1 src2 | .vmaxpd vl _ dst src1 src2
  | .vscalefps vl _ dst src1 src2 | .vscalefpd vl _ dst src1 src2 =>
    p.hasLength vl && p.hasReg dst && p.hasReg src1 && p.hasSrc src2
  | .vsqrtps vl _ dst src | .vsqrtpd vl _ dst src =>
    p.hasLength vl && p.hasReg dst && p.hasSrc src
  | .vaddss _ dst src1 src2 | .vaddsd _ dst src1 src2 | .vsubss _ dst src1 src2 | .vsubsd _ dst src1 src2
  | .vmulss _ dst src1 src2 | .vmulsd _ dst src1 src2 | .vdivss _ dst src1 src2 | .vdivsd _ dst src1 src2
  | .vminss _ dst src1 src2 | .vminsd _ dst src1 src2 | .vmaxss _ dst src1 src2 | .vmaxsd _ dst src1 src2
  | .vsqrtss _ dst src1 src2 | .vsqrtsd _ dst src1 src2 | .vscalefss _ dst src1 src2 | .vscalefsd _ dst src1 src2 =>
    p.hasReg dst && p.hasReg src1 && p.hasSrc src2
  | .vhaddps vl dst src1 src2 | .vhaddpd vl dst src1 src2 | .vhsubps vl dst src1 src2 | .vhsubpd vl dst src1 src2
  | .vaddsubps vl dst src1 src2 | .vaddsubpd vl dst src1 src2 =>
    p.hasLength vl && p.hasReg dst && p.hasReg src1 && p.hasSrc src2
  | .vcmpps vl dst src1 src2 _ | .vcmppd vl dst src1 src2 _ | .vdpps vl dst src1 src2 _ =>
    p.hasLength vl && p.hasReg dst && p.hasReg src1 && p.hasSrc src2
  | .vrcpps vl dst src | .vrsqrtps vl dst src =>
    p.hasLength vl && p.hasReg dst && p.hasSrc src
  | .vroundps vl dst src _ | .vroundpd vl dst src _ =>
    p.hasLength vl && p.hasReg dst && p.hasSrc src
  | .vrcpss dst src1 src2 | .vrsqrtss dst src1 src2 =>
    p.hasReg dst && p.hasReg src1 && p.hasSrc src2
  | .vroundss dst src1 src2 _ | .vroundsd dst src1 src2 _ | .vcmpss dst src1 src2 _ | .vcmpsd dst src1 src2 _ =>
    p.hasReg dst && p.hasReg src1 && p.hasSrc src2
  | .vtestps vl src1 src2 | .vtestpd vl src1 src2 =>
    p.hasLength vl && p.hasReg src1 && p.hasSrc src2

end Sys2Proof
end

