-- ==== Sys2Proof/Decode.lean ====
section
/-!
DEFINITION. The 64-bit descriptor (spec/30_encoding.md R38, R39), which descriptors are legal (R45), the decoder, and after it
the encoder, written from the same fields. Every descriptor that R45 rejects is refused by the name R45 gives.
-/

namespace Sys2Proof

/-- The operations of the OP field (R39). -/
inductive Op
  | add
  | sub
  | mul
  | div
  | min
  | max
  | sqrt
  | scalef
  | round
  | hadd
  | hsub
  | addsub
  | cmp
  | dp
  | rcp
  | rsqrt
  | test
deriving DecidableEq, Repr, Inhabited

/-- The OP field's number of an operation (R39). -/
def Op.code : Op → BitVec 6
  | .add => 0
  | .sub => 1
  | .mul => 2
  | .div => 3
  | .min => 4
  | .max => 5
  | .sqrt => 6
  | .scalef => 7
  | .round => 8
  | .hadd => 9
  | .hsub => 10
  | .addsub => 11
  | .cmp => 12
  | .dp => 13
  | .rcp => 14
  | .rsqrt => 15
  | .test => 16

/-- The operation an OP field selects; 17 to 63 are reserved (R39). -/
def Op.ofCode (c : BitVec 6) : Option Op :=
  match c.toNat with
  | 0 => some .add
  | 1 => some .sub
  | 2 => some .mul
  | 3 => some .div
  | 4 => some .min
  | 5 => some .max
  | 6 => some .sqrt
  | 7 => some .scalef
  | 8 => some .round
  | 9 => some .hadd
  | 10 => some .hsub
  | 11 => some .addsub
  | 12 => some .cmp
  | 13 => some .dp
  | 14 => some .rcp
  | 15 => some .rsqrt
  | 16 => some .test
  | _ => none

/-- The fields of a descriptor word, as they stand in it (R38); `rsv39` is bits 39:35 and `rsv63` bits 63:48. -/
structure Desc where
  op : BitVec 6
  scalar : Bool
  dbl : Bool
  vl : BitVec 2
  nl : Bool
  rcv : Bool
  rcm : BitVec 2
  sae : Bool
  kz : Bool
  ksel : KReg
  dst : VReg
  src1 : VReg
  src2 : VReg
  mem : Bool
  rsv39 : BitVec 5
  imm8 : BitVec 8
  rsv63 : BitVec 16
deriving DecidableEq, Repr, Inhabited

/-- The fields of a descriptor word (R38). -/
def unpack (w : BitVec 64) : Desc :=
  { op := w.extractLsb' 0 6
    scalar := w.getLsbD 6
    dbl := w.getLsbD 7
    vl := w.extractLsb' 8 2
    nl := w.getLsbD 10
    rcv := w.getLsbD 11
    rcm := w.extractLsb' 12 2
    sae := w.getLsbD 14
    kz := w.getLsbD 15
    ksel := w.extractLsb' 16 3
    dst := w.extractLsb' 19 5
    src1 := w.extractLsb' 24 5
    src2 := w.extractLsb' 29 5
    mem := w.getLsbD 34
    rsv39 := w.extractLsb' 35 5
    imm8 := w.extractLsb' 40 8
    rsv63 := w.extractLsb' 48 16 }

/-- Why a descriptor is refused: the names of R45's `legal`. -/
inductive RefuseReason
  | reservedBits
  | reservedOp
  | reservedVl
  | vlExceedsMaxvl
  | regRange
  | regRangeVex
  | memSrc2
  | legacyVl
  | legacySrc1
  | regRangeLegacy
  | noLegacyForm
  | scalarVl
  | noScalarForm
  | noDoubleForm
  | no512Form
  | noEvexFeature
  | noRoundingOverride
  | rcmWithoutRcv
  | zeroingWithoutMask
  | unarySrc1
  | immUnused
  | testDst
deriving DecidableEq, Repr, Inhabited

/-- The OP field selects one of the operations listed. -/
def Desc.opIn (d : Desc) (ops : List Op) : Bool := ops.any fun o => o.code == d.op

/-- ARITH, the operations that have 512-bit and write-mask forms (R45). -/
def arithOps : List Op := [.add, .sub, .mul, .div, .min, .max, .sqrt, .scalef]

/-- UNARY (R45). -/
def unaryOps : List Op := [.sqrt, .round, .rcp, .rsqrt]

/-- Some register field of the descriptor has the property: `max(DST, SRC1, SRC2) >= n` asks it of "not below n". -/
def Desc.anyReg (d : Desc) (f : VReg → Bool) : Bool := f d.dst || f d.src1 || f d.src2

/-- `legal(desc)` of R45, test by test in R45's order: each test that makes it refuse, with the reason it gives. The lengths
of VL 0 and 1 fit every MAXVL, and an index below 16 every NVREG, so only VL = 2 and indices from 16 up ask the
parameters. -/
def legalChecks (p : Params) (d : Desc) : List (Bool × RefuseReason) :=
  [ (d.rsv63 != 0 || d.rsv39 != 0, .reservedBits)
  , (decide (16 < d.op.toNat), .reservedOp)
  , (d.vl == 3, .reservedVl)
  , (d.vl == 2 && p.maxvl == .w256, .vlExceedsMaxvl)
  , (d.anyReg (fun r => !p.hasReg r), .regRange)
  , (!d.opIn arithOps && d.anyReg (fun r => !VReg.low r), .regRangeVex)
  , (d.mem && d.src2 != 0, .memSrc2)
  , (!d.nl && d.vl != 0, .legacyVl)
  , (!d.nl && d.src1 != d.dst, .legacySrc1)
  , (!d.nl && (!VReg.low d.dst || !VReg.low d.src2), .regRangeLegacy)
  , (!d.nl && d.opIn [.scalef, .test], .noLegacyForm)
  , (d.scalar && d.vl != 0, .scalarVl)
  , (d.scalar && d.opIn [.hadd, .hsub, .addsub, .dp, .test], .noScalarForm)
  , (d.dbl && d.opIn [.dp, .rcp, .rsqrt], .noDoubleForm)
  , (d.vl == 2 && !d.opIn arithOps, .no512Form)
  , ((d.rcv || d.sae || d.kz || d.ksel != 0) && (!d.nl || !d.opIn arithOps), .noEvexFeature)
  , (d.rcv && d.opIn [.min, .max], .noRoundingOverride)
  , (!d.rcv && d.rcm != 0, .rcmWithoutRcv)
  , (d.kz && d.ksel == 0, .zeroingWithoutMask)
  , (d.opIn unaryOps && !d.scalar && d.nl && d.src1 != 0, .unarySrc1)
  , (!d.opIn [.round, .cmp, .dp] && d.imm8 != 0, .immUnused)
  , (d.opIn [.test] && d.dst != d.src1, .testDst) ]

/-- The reason of the first test that holds. -/
def firstReason : List (Bool × RefuseReason) → Option RefuseReason
  | [] => none
  | (true, r) :: _ => some r
  | (false, _) :: rest => firstReason rest

/-- `legal(desc)` of R45: `none` when the descriptor is legal, else the reason it is refused. -/
def refuseReason (p : Params) (d : Desc) : Option RefuseReason := firstReason (legalChecks p d)

/-- The rounding mode a 2-bit field encodes (R61). -/
def RoundMode.ofBits (b : BitVec 2) : RoundMode :=
  match b.toNat with
  | 0 => .rn
  | 1 => .rd
  | 2 => .ru
  | _ => .rz

/-- The vector-length class of a VL field (R38); 3 is reserved and never legal. -/
def VLen.ofBits (b : BitVec 2) : VLen :=
  match b.toNat with
  | 0 => .v128
  | 1 => .v256
  | _ => .v512

/-- Operand B of a descriptor (R14). -/
def Desc.src (d : Desc) : Src := if d.mem then .mem else .reg d.src2

/-- The EVEX fields of a descriptor (R38). -/
def Desc.evex (d : Desc) : Evex :=
  { rc := if d.rcv then some (RoundMode.ofBits d.rcm) else none, sae := d.sae, kz := d.kz, ksel := d.ksel }

/-- The instruction of a legal descriptor: the table's row by OP, S, D and NL, with its operands. -/
def Desc.instr (d : Desc) : Option Instr :=
  match Op.ofCode d.op, d.nl, d.scalar, d.dbl with
  | some .add, false, false, false => some (.addps d.dst d.src)
  | some .add, false, false, true => some (.addpd d.dst d.src)
  | some .add, false, true, false => some (.addss d.dst d.src)
  | some .add, false, true, true => some (.addsd d.dst d.src)
  | some .add, true, false, false => some (.vaddps (VLen.ofBits d.vl) d.evex d.dst d.src1 d.src)
  | some .add, true, false, true => some (.vaddpd (VLen.ofBits d.vl) d.evex d.dst d.src1 d.src)
  | some .add, true, true, false => some (.vaddss d.evex d.dst d.src1 d.src)
  | some .add, true, true, true => some (.vaddsd d.evex d.dst d.src1 d.src)
  | some .sub, false, false, false => some (.subps d.dst d.src)
  | some .sub, false, false, true => some (.subpd d.dst d.src)
  | some .sub, false, true, false => some (.subss d.dst d.src)
  | some .sub, false, true, true => some (.subsd d.dst d.src)
  | some .sub, true, false, false => some (.vsubps (VLen.ofBits d.vl) d.evex d.dst d.src1 d.src)
  | some .sub, true, false, true => some (.vsubpd (VLen.ofBits d.vl) d.evex d.dst d.src1 d.src)
  | some .sub, true, true, false => some (.vsubss d.evex d.dst d.src1 d.src)
  | some .sub, true, true, true => some (.vsubsd d.evex d.dst d.src1 d.src)
  | some .mul, false, false, false => some (.mulps d.dst d.src)
  | some .mul, false, false, true => some (.mulpd d.dst d.src)
  | some .mul, false, true, false => some (.mulss d.dst d.src)
  | some .mul, false, true, true => some (.mulsd d.dst d.src)
  | some .mul, true, false, false => some (.vmulps (VLen.ofBits d.vl) d.evex d.dst d.src1 d.src)
  | some .mul, true, false, true => some (.vmulpd (VLen.ofBits d.vl) d.evex d.dst d.src1 d.src)
  | some .mul, true, true, false => some (.vmulss d.evex d.dst d.src1 d.src)
  | some .mul, true, true, true => some (.vmulsd d.evex d.dst d.src1 d.src)
  | some .div, false, false, false => some (.divps d.dst d.src)
  | some .div, false, false, true => some (.divpd d.dst d.src)
  | some .div, false, true, false => some (.divss d.dst d.src)
  | some .div, false, true, true => some (.divsd d.dst d.src)
  | some .div, true, false, false => some (.vdivps (VLen.ofBits d.vl) d.evex d.dst d.src1 d.src)
  | some .div, true, false, true => some (.vdivpd (VLen.ofBits d.vl) d.evex d.dst d.src1 d.src)
  | some .div, true, true, false => some (.vdivss d.evex d.dst d.src1 d.src)
  | some .div, true, true, true => some (.vdivsd d.evex d.dst d.src1 d.src)
  | some .min, false, false, false => some (.minps d.dst d.src)
  | some .min, false, false, true => some (.minpd d.dst d.src)
  | some .min, false, true, false => some (.minss d.dst d.src)
  | some .min, false, true, true => some (.minsd d.dst d.src)
  | some .min, true, false, false => some (.vminps (VLen.ofBits d.vl) d.evex d.dst d.src1 d.src)
  | some .min, true, false, true => some (.vminpd (VLen.ofBits d.vl) d.evex d.dst d.src1 d.src)
  | some .min, true, true, false => some (.vminss d.evex d.dst d.src1 d.src)
  | some .min, true, true, true => some (.vminsd d.evex d.dst d.src1 d.src)
  | some .max, false, false, false => some (.maxps d.dst d.src)
  | some .max, false, false, true => some (.maxpd d.dst d.src)
  | some .max, false, true, false => some (.maxss d.dst d.src)
  | some .max, false, true, true => some (.maxsd d.dst d.src)
  | some .max, true, false, false => some (.vmaxps (VLen.ofBits d.vl) d.evex d.dst d.src1 d.src)
  | some .max, true, false, true => some (.vmaxpd (VLen.ofBits d.vl) d.evex d.dst d.src1 d.src)
  | some .max, true, true, false => some (.vmaxss d.evex d.dst d.src1 d.src)
  | some .max, true, true, true => some (.vmaxsd d.evex d.dst d.src1 d.src)
  | some .sqrt, false, false, false => some (.sqrtps d.dst d.src)
  | some .sqrt, false, false, true => some (.sqrtpd d.dst d.src)
  | some .sqrt, false, true, false => some (.sqrtss d.dst d.src)
  | some .sqrt, false, true, true => some (.sqrtsd d.dst d.src)
  | some .sqrt, true, false, false => some (.vsqrtps (VLen.ofBits d.vl) d.evex d.dst d.src)
  | some .sqrt, true, false, true => some (.vsqrtpd (VLen.ofBits d.vl) d.evex d.dst d.src)
  | some .sqrt, true, true, false => some (.vsqrtss d.evex d.dst d.src1 d.src)
  | some .sqrt, true, true, true => some (.vsqrtsd d.evex d.dst d.src1 d.src)
  | some .scalef, true, false, false => some (.vscalefps (VLen.ofBits d.vl) d.evex d.dst d.src1 d.src)
  | some .scalef, true, false, true => some (.vscalefpd (VLen.ofBits d.vl) d.evex d.dst d.src1 d.src)
  | some .scalef, true, true, false => some (.vscalefss d.evex d.dst d.src1 d.src)
  | some .scalef, true, true, true => some (.vscalefsd d.evex d.dst d.src1 d.src)
  | some .round, false, false, false => some (.roundps d.dst d.src d.imm8)
  | some .round, false, false, true => some (.roundpd d.dst d.src d.imm8)
  | some .round, false, true, false => some (.roundss d.dst d.src d.imm8)
  | some .round, false, true, true => some (.roundsd d.dst d.src d.imm8)
  | some .round, true, false, false => some (.vroundps (VLen.ofBits d.vl) d.dst d.src d.imm8)
  | some .round, true, false, true => some (.vroundpd (VLen.ofBits d.vl) d.dst d.src d.imm8)
  | some .round, true, true, false => some (.vroundss d.dst d.src1 d.src d.imm8)
  | some .round, true, true, true => some (.vroundsd d.dst d.src1 d.src d.imm8)
  | some .hadd, false, false, false => some (.haddps d.dst d.src)
  | some .hadd, false, false, true => some (.haddpd d.dst d.src)
  | some .hadd, true, false, false => some (.vhaddps (VLen.ofBits d.vl) d.dst d.src1 d.src)
  | some .hadd, true, false, true => some (.vhaddpd (VLen.ofBits d.vl) d.dst d.src1 d.src)
  | some .hsub, false, false, false => some (.hsubps d.dst d.src)
  | some .hsub, false, false, true => some (.hsubpd d.dst d.src)
  | some .hsub, true, false, false => some (.vhsubps (VLen.ofBits d.vl) d.dst d.src1 d.src)
  | some .hsub, true, false, true => some (.vhsubpd (VLen.ofBits d.vl) d.dst d.src1 d.src)
  | some .addsub, false, false, false => some (.addsubps d.dst d.src)
  | some .addsub, false, false, true => some (.addsubpd d.dst d.src)
  | some .addsub, true, false, false => some (.vaddsubps (VLen.ofBits d.vl) d.dst d.src1 d.src)
  | some .addsub, true, false, true => some (.vaddsubpd (VLen.ofBits d.vl) d.dst d.src1 d.src)
  | some .cmp, false, false, false => some (.cmpps d.dst d.src d.imm8)
  | some .cmp, false, false, true => some (.cmppd d.dst d.src d.imm8)
  | some .cmp, false, true, false => some (.cmpss d.dst d.src d.imm8)
  | some .cmp, false, true, true => some (.cmpsd d.dst d.src d.imm8)
  | some .cmp, true, false, false => some (.vcmpps (VLen.ofBits d.vl) d.dst d.src1 d.src d.imm8)
  | some .cmp, true, false, true => some (.vcmppd (VLen.ofBits d.vl) d.dst d.src1 d.src d.imm8)
  | some .cmp, true, true, false => some (.vcmpss d.dst d.src1 d.src d.imm8)
  | some .cmp, true, true, true => some (.vcmpsd d.dst d.src1 d.src d.imm8)
  | some .dp, false, false, false => some (.dpps d.dst d.src d.imm8)
  | some .dp, true, false, false => some (.vdpps (VLen.ofBits d.vl) d.dst d.src1 d.src d.imm8)
  | some .rcp, false, false, false => some (.rcpps d.dst d.src)
  | some .rcp, false, true, false => some (.rcpss d.dst d.src)
  | some .rcp, true, false, false => some (.vrcpps (VLen.ofBits d.vl) d.dst d.src)
  | some .rcp, true, true, false => some (.vrcpss d.dst d.src1 d.src)
  | some .rsqrt, false, false, false => some (.rsqrtps d.dst d.src)
  | some .rsqrt, false, true, false => some (.rsqrtss d.dst d.src)
  | some .rsqrt, true, false, false => some (.vrsqrtps (VLen.ofBits d.vl) d.dst d.src)
  | some .rsqrt, true, true, false => some (.vrsqrtss d.dst d.src1 d.src)
  | some .test, true, false, false => some (.vtestps (VLen.ofBits d.vl) d.src1 d.src)
  | some .test, true, false, true => some (.vtestpd (VLen.ofBits d.vl) d.src1 d.src)
  | _, _, _, _ => none

/-- The decoder: a descriptor word is refused with R45's reason, or it is one instruction. -/
def decode (p : Params) (w : BitVec 64) : Except RefuseReason Instr :=
  match refuseReason p (unpack w) with
  | some r => .error r
  | none =>
    match (unpack w).instr with
    | some i => .ok i
    | none => .error .reservedOp

/-- The instruction the decoder reads from a descriptor whose low `nbits` bits are those of `w` and whose other bits are 0, on
the widest machine (a descriptor legal under some parameters is the same instruction there; assumption log 10, DESIGN CHOICE). -/
def decodeTableWord (nbits w : Nat) : Option Instr :=
  match decode Params.widest (BitVec.ofNat 64 (w % 2 ^ nbits)) with
  | .ok i => some i
  | .error _ => none

/-- The 2-bit encoding of a rounding mode (R61). -/
def RoundMode.bits : RoundMode → BitVec 2
  | .rn => 0
  | .rd => 1
  | .ru => 2
  | .rz => 3

/-- The VL field of a vector-length class (R38). -/
def VLen.code : VLen → BitVec 2
  | .v128 => 0
  | .v256 => 1
  | .v512 => 2

/-- The SRC2 field of operand B; 0 for a memory operand (MEM_SRC2). -/
def Src.index : Src → VReg
  | .reg r => r
  | .mem => 0

/-- The MEM field of operand B. -/
def Src.isMem : Src → Bool
  | .reg _ => false
  | .mem => true

/-- The RCV field. -/
def Evex.rcv (ev : Evex) : Bool := ev.rc.isSome

/-- The RCM field; 0 without an override (RCM_WITHOUT_RCV). -/
def Evex.rcm (ev : Evex) : BitVec 2 :=
  match ev.rc with
  | some m => m.bits
  | none => 0

/-- The fields of a legacy form: NL = 0, VL = 0, SRC1 = DST, no EVEX field (R45). -/
def Desc.legacy (op : Op) (scalar dbl : Bool) (dst : VReg) (src : Src) (imm : BitVec 8) : Desc :=
  { op := op.code, scalar := scalar, dbl := dbl, vl := 0, nl := false, rcv := false, rcm := 0, sae := false, kz := false,
    ksel := 0, dst := dst, src1 := dst, src2 := src.index, mem := src.isMem, rsv39 := 0, imm8 := imm, rsv63 := 0 }

/-- The fields of a non-legacy form: NL = 1 (R45). -/
def Desc.nonLegacy (op : Op) (scalar dbl : Bool) (vl : VLen) (ev : Evex) (dst src1 : VReg) (src2 : Src) (imm : BitVec 8) :
    Desc :=
  { op := op.code, scalar := scalar, dbl := dbl, vl := vl.code, nl := true, rcv := ev.rcv, rcm := ev.rcm, sae := ev.sae,
    kz := ev.kz, ksel := ev.ksel, dst := dst, src1 := src1, src2 := src2.index, mem := src2.isMem, rsv39 := 0,
    imm8 := imm, rsv63 := 0 }

/-- The descriptor fields of an instruction (R38, R45): its row's OP, S, D and NL, its operands, and 0 where it has none
(SRC1 of a packed unary non-legacy form, IMM8 of an operation without an immediate); DST = SRC1 for VTEST. -/
def Instr.desc : Instr → Desc
  | .addps dst src => .legacy .add false false dst src 0
  | .addpd dst src => .legacy .add false true dst src 0
  | .addss dst src => .legacy .add true false dst src 0
  | .addsd dst src => .legacy .add true true dst src 0
  | .vaddps vl ev dst src1 src2 => .nonLegacy .add false false vl ev dst src1 src2 0
  | .vaddpd vl ev dst src1 src2 => .nonLegacy .add false true vl ev dst src1 src2 0
  | .vaddss ev dst src1 src2 => .nonLegacy .add true false .v128 ev dst src1 src2 0
  | .vaddsd ev dst src1 src2 => .nonLegacy .add true true .v128 ev dst src1 src2 0
  | .subps dst src => .legacy .sub false false dst src 0
  | .subpd dst src => .legacy .sub false true dst src 0
  | .subss dst src => .legacy .sub true false dst src 0
  | .subsd dst src => .legacy .sub true true dst src 0
  | .vsubps vl ev dst src1 src2 => .nonLegacy .sub false false vl ev dst src1 src2 0
  | .vsubpd vl ev dst src1 src2 => .nonLegacy .sub false true vl ev dst src1 src2 0
  | .vsubss ev dst src1 src2 => .nonLegacy .sub true false .v128 ev dst src1 src2 0
  | .vsubsd ev dst src1 src2 => .nonLegacy .sub true true .v128 ev dst src1 src2 0
  | .mulps dst src => .legacy .mul false false dst src 0
  | .mulpd dst src => .legacy .mul false true dst src 0
  | .mulss dst src => .legacy .mul true false dst src 0
  | .mulsd dst src => .legacy .mul true true dst src 0
  | .vmulps vl ev dst src1 src2 => .nonLegacy .mul false false vl ev dst src1 src2 0
  | .vmulpd vl ev dst src1 src2 => .nonLegacy .mul false true vl ev dst src1 src2 0
  | .vmulss ev dst src1 src2 => .nonLegacy .mul true false .v128 ev dst src1 src2 0
  | .vmulsd ev dst src1 src2 => .nonLegacy .mul true true .v128 ev dst src1 src2 0
  | .divps dst src => .legacy .div false false dst src 0
  | .divpd dst src => .legacy .div false true dst src 0
  | .divss dst src => .legacy .div true false dst src 0
  | .divsd dst src => .legacy .div true true dst src 0
  | .vdivps vl ev dst src1 src2 => .nonLegacy .div false false vl ev dst src1 src2 0
  | .vdivpd vl ev dst src1 src2 => .nonLegacy .div false true vl ev dst src1 src2 0
  | .vdivss ev dst src1 src2 => .nonLegacy .div true false .v128 ev dst src1 src2 0
  | .vdivsd ev dst src1 src2 => .nonLegacy .div true true .v128 ev dst src1 src2 0
  | .minps dst src => .legacy .min false false dst src 0
  | .minpd dst src => .legacy .min false true dst src 0
  | .minss dst src => .legacy .min true false dst src 0
  | .minsd dst src => .legacy .min true true dst src 0
  | .vminps vl ev dst src1 src2 => .nonLegacy .min false false vl ev dst src1 src2 0
  | .vminpd vl ev dst src1 src2 => .nonLegacy .min false true vl ev dst src1 src2 0
  | .vminss ev dst src1 src2 => .nonLegacy .min true false .v128 ev dst src1 src2 0
  | .vminsd ev dst src1 src2 => .nonLegacy .min true true .v128 ev dst src1 src2 0
  | .maxps dst src => .legacy .max false false dst src 0
  | .maxpd dst src => .legacy .max false true dst src 0
  | .maxss dst src => .legacy .max true false dst src 0
  | .maxsd dst src => .legacy .max true true dst src 0
  | .vmaxps vl ev dst src1 src2 => .nonLegacy .max false false vl ev dst src1 src2 0
  | .vmaxpd vl ev dst src1 src2 => .nonLegacy .max false true vl ev dst src1 src2 0
  | .vmaxss ev dst src1 src2 => .nonLegacy .max true false .v128 ev dst src1 src2 0
  | .vmaxsd ev dst src1 src2 => .nonLegacy .max true true .v128 ev dst src1 src2 0
  | .sqrtps dst src => .legacy .sqrt false false dst src 0
  | .sqrtpd dst src => .legacy .sqrt false true dst src 0
  | .sqrtss dst src => .legacy .sqrt true false dst src 0
  | .sqrtsd dst src => .legacy .sqrt true true dst src 0
  | .vsqrtps vl ev dst src => .nonLegacy .sqrt false false vl ev dst 0 src 0
  | .vsqrtpd vl ev dst src => .nonLegacy .sqrt false true vl ev dst 0 src 0
  | .vsqrtss ev dst src1 src2 => .nonLegacy .sqrt true false .v128 ev dst src1 src2 0
  | .vsqrtsd ev dst src1 src2 => .nonLegacy .sqrt true true .v128 ev dst src1 src2 0
  | .vscalefps vl ev dst src1 src2 => .nonLegacy .scalef false false vl ev dst src1 src2 0
  | .vscalefpd vl ev dst src1 src2 => .nonLegacy .scalef false true vl ev dst src1 src2 0
  | .vscalefss ev dst src1 src2 => .nonLegacy .scalef true false .v128 ev dst src1 src2 0
  | .vscalefsd ev dst src1 src2 => .nonLegacy .scalef true true .v128 ev dst src1 src2 0
  | .roundps dst src imm => .legacy .round false false dst src imm
  | .roundpd dst src imm => .legacy .round false true dst src imm
  | .roundss dst src imm => .legacy .round true false dst src imm
  | .roundsd dst src imm => .legacy .round true true dst src imm
  | .vroundps vl dst src imm => .nonLegacy .round false false vl .plain dst 0 src imm
  | .vroundpd vl dst src imm => .nonLegacy .round false true vl .plain dst 0 src imm
  | .vroundss dst src1 src2 imm => .nonLegacy .round true false .v128 .plain dst src1 src2 imm
  | .vroundsd dst src1 src2 imm => .nonLegacy .round true true .v128 .plain dst src1 src2 imm
  | .haddps dst src => .legacy .hadd false false dst src 0
  | .haddpd dst src => .legacy .hadd false true dst src 0
  | .vhaddps vl dst src1 src2 => .nonLegacy .hadd false false vl .plain dst src1 src2 0
  | .vhaddpd vl dst src1 src2 => .nonLegacy .hadd false true vl .plain dst src1 src2 0
  | .hsubps dst src => .legacy .hsub false false dst src 0
  | .hsubpd dst src => .legacy .hsub false true dst src 0
  | .vhsubps vl dst src1 src2 => .nonLegacy .hsub false false vl .plain dst src1 src2 0
  | .vhsubpd vl dst src1 src2 => .nonLegacy .hsub false true vl .plain dst src1 src2 0
  | .addsubps dst src => .legacy .addsub false false dst src 0
  | .addsubpd dst src => .legacy .addsub false true dst src 0
  | .vaddsubps vl dst src1 src2 => .nonLegacy .addsub false false vl .plain dst src1 src2 0
  | .vaddsubpd vl dst src1 src2 => .nonLegacy .addsub false true vl .plain dst src1 src2 0
  | .cmpps dst src imm => .legacy .cmp false false dst src imm
  | .cmppd dst src imm => .legacy .cmp false true dst src imm
  | .cmpss dst src imm => .legacy .cmp true false dst src imm
  | .cmpsd dst src imm => .legacy .cmp true true dst src imm
  | .vcmpps vl dst src1 src2 imm => .nonLegacy .cmp false false vl .plain dst src1 src2 imm
  | .vcmppd vl dst src1 src2 imm => .nonLegacy .cmp false true vl .plain dst src1 src2 imm
  | .vcmpss dst src1 src2 imm => .nonLegacy .cmp true false .v128 .plain dst src1 src2 imm
  | .vcmpsd dst src1 src2 imm => .nonLegacy .cmp true true .v128 .plain dst src1 src2 imm
  | .dpps dst src imm => .legacy .dp false false dst src imm
  | .vdpps vl dst src1 src2 imm => .nonLegacy .dp false false vl .plain dst src1 src2 imm
  | .rcpps dst src => .legacy .rcp false false dst src 0
  | .rcpss dst src => .legacy .rcp true false dst src 0
  | .vrcpps vl dst src => .nonLegacy .rcp false false vl .plain dst 0 src 0
  | .vrcpss dst src1 src2 => .nonLegacy .rcp true false .v128 .plain dst src1 src2 0
  | .rsqrtps dst src => .legacy .rsqrt false false dst src 0
  | .rsqrtss dst src => .legacy .rsqrt true false dst src 0
  | .vrsqrtps vl dst src => .nonLegacy .rsqrt false false vl .plain dst 0 src 0
  | .vrsqrtss dst src1 src2 => .nonLegacy .rsqrt true false .v128 .plain dst src1 src2 0
  | .vtestps vl src1 src2 => .nonLegacy .test false false vl .plain src1 src1 src2 0
  | .vtestpd vl src1 src2 => .nonLegacy .test false true vl .plain src1 src1 src2 0

/-- The descriptor word with the fields given (R38: `OP | S<<6 | D<<7 | VL<<8 | ...`). -/
def pack (d : Desc) : BitVec 64 :=
  d.rsv63 ++ d.imm8 ++ d.rsv39 ++ BitVec.ofBool d.mem ++ d.src2 ++ d.src1 ++ d.dst ++ d.ksel ++ BitVec.ofBool d.kz ++
    BitVec.ofBool d.sae ++ d.rcm ++ BitVec.ofBool d.rcv ++ BitVec.ofBool d.nl ++ d.vl ++ BitVec.ofBool d.dbl ++
    BitVec.ofBool d.scalar ++ d.op

/-- The encoder: the descriptor word of an instruction. -/
def encode (i : Instr) : BitVec 64 := pack i.desc

end Sys2Proof
end

