-- ==== Sys2Proof/Machine/State.lean ====
section
/-!
DEFINITION. The state of the machine: the state the core owns and the lane array reads and writes through the call interface
(spec/10_state.md), the calls and actions the core has still to send, the exceptions the core is handling, and the parameters;
the reasons a step stops; the state after reset (spec/70_reset_and_hazards.md R226).
-/

namespace Sys2Proof.Machine

/-- The core's arithmetic flags that VTESTPS and VTESTPD write (R24, R205, R211), and no other bit of that register
(assumption log 11, DESIGN CHOICE). -/
structure CondFlags where
  zf : Bool
  cf : Bool
  oflag : Bool
  sf : Bool
  af : Bool
  pf : Bool
deriving DecidableEq, Repr, Inhabited

/-- What the core does next (R4, R14, R34: one thing at a time, in order); that the inputs stand in the state is the model's
(assumption log 4, DESIGN CHOICE). The block's part is `call`; the others are what
the spec says the core does to the state the block reads: its writes of the register files, of MXCSR, of CR4.OSXMMEXCPT and
of its arithmetic flags (R14, R20, R21, R24, R228, R232), the return of its exception handler (R216), INIT and power-on RESET
(R226). -/
inductive CoreInput
  /-- Send the block one descriptor, with the memory operand value `Bmem` (R14). -/
  | call (desc : BitVec 64) (bmem : VecWord)
  /-- Write a vector register by index (R14, R19). -/
  | writeX (r : VReg) (v : VecWord)
  /-- Write a write-mask register (R20). -/
  | writeK (r : KReg) (v : BitVec 64)
  /-- Write MXCSR (R21, R220, R232). -/
  | writeMxcsr (v : BitVec 32)
  /-- Write CR4.OSXMMEXCPT (R228). -/
  | writeOsxmmexcpt (b : Bool)
  /-- Write the arithmetic flags (R24: the register is the core's). -/
  | writeCond (c : CondFlags)
  /-- Return from the exception handler to the faulting instruction (R216), with the memory operand value `Bmem` that the core
  supplies with the new call (R14). -/
  | handlerReturn (bmem : VecWord)
  /-- INIT (R226). -/
  | init
  /-- Power-on RESET (R226). -/
  | powerOn
deriving DecidableEq, Repr, Inhabited

/-- The exception a SIMD floating-point fault takes (R212). -/
inductive ExcVector
  | ud
  | xm
deriving DecidableEq, Repr, Inhabited

/-- The vector number of an exception: `#UD` is 6, `#XM` is 19 (R212). -/
def ExcVector.number : ExcVector → Nat
  | .ud => 6
  | .xm => 19

/-- One exception the core has taken and not yet returned from: its vector, and the faulting call, which is where the core's
instruction pointer stands (R212) and what it sends again after the return (R216). -/
structure TrapFrame where
  vector : ExcVector
  faulting : Option CoreInput
deriving DecidableEq, Repr, Inhabited

/-- The state. `cfg` is the parameters (R7), fixed for the run (R228); `draws` is the model's own field, the number of the
next free value (assumption log 6). -/
structure State where
  /-- the parameters -/
  cfg : Params
  /-- the vector register file `x[0..NVREG-1]` (R19) -/
  x : Vector VecWord 32
  /-- the write-mask registers `k[0..7]` (R20); their 64 bits are assumption log 3 (PRESUMED) -/
  k : Vector (BitVec 64) 8
  /-- MXCSR (R21) -/
  mxcsr : BitVec 32
  /-- ZF, CF, OF, SF, AF, PF (R24) -/
  cond : CondFlags
  /-- CR4.OSXMMEXCPT (R212) -/
  osxmmexcpt : Bool
  /-- what the core sends next, the first first -/
  inputs : List CoreInput
  /-- the exceptions being handled, the innermost first (assumption log 7, DESIGN CHOICE) -/
  traps : List TrapFrame
  /-- the model's counter of free values (assumption log 6, DESIGN CHOICE) -/
  draws : Nat
deriving DecidableEq, Repr

/-- Why the machine stops with a fault. No call of the block faults (R208); these are raised by the core's own actions. -/
inductive Fault
  /-- Raised by `writeMxcsr` of a value with one of bits 31:16 set: a core write of 1 there faults in the core (R21), and the
  spec says no more of it. Safe: the machine stops. -/
  | mxcsrReservedBits
  /-- Raised by `writeX` of a register index from NVREG up: the machine has no such register (R7, R19). Safe. -/
  | noSuchRegister
  /-- Raised by `handlerReturn` when the core is handling no exception: there is nothing to return to (R216). Safe. -/
  | noHandler
deriving DecidableEq, Repr

/-- Why an instruction is refused. -/
inductive Refusal
  /-- Raised by exec's arm of an instruction that has no meaning yet, by its mnemonic. Safe. -/
  | notModelled (mnemonic : String)
  /-- Raised by a call of a descriptor that is not legal: R15's `Refuse(reason)`, with R45's reason. Safe: the spec itself asks
  a model to refuse the run. -/
  | descriptor (reason : RefuseReason)
deriving DecidableEq, Repr

/-- MXCSR after power-on RESET (R21, R226). -/
def mxcsrReset : BitVec 32 := 0x1F80

/-- All arithmetic flags clear. -/
def CondFlags.clear : CondFlags := ⟨false, false, false, false, false, false⟩

/-- The state after power-on RESET of a machine with the parameters given (R226), with nothing sent yet. -/
def State.resetWith (p : Params) : State :=
  { cfg := p
    x := Vector.replicate 32 VecWord.zero
    k := Vector.replicate 8 0
    mxcsr := mxcsrReset
    cond := CondFlags.clear
    osxmmexcpt := false
    inputs := []
    traps := []
    draws := 0 }

/-- The state after power-on RESET; the parameters are OPEN (R7). -/
def State.reset : State := State.resetWith Config.params

end Sys2Proof.Machine
end

