-- ==== Sys2Proof/Machine/Format.lean ====
section
/-!
DEFINITION. The two element formats (spec/40_status_context.md R58), the classes of a pattern, the real number a finite pattern
denotes, the default NaN and quieting (R59, R60).
-/

namespace Sys2Proof.Machine

/-- The element format of an instruction: descriptor field D (R38). -/
inductive Fmt
  | f32
  | f64
deriving DecidableEq, Repr, Inhabited

/-- Element width `w` (R58). -/
@[reducible] def Fmt.w : Fmt → Nat
  | .f32 => 32
  | .f64 => 64

/-- Precision `p` (R58). -/
def Fmt.p : Fmt → Nat
  | .f32 => 24
  | .f64 => 53

/-- Width of the exponent field (R58). -/
def Fmt.ebits : Fmt → Nat
  | .f32 => 8
  | .f64 => 11

/-- Exponent bias (R58). -/
def Fmt.bias : Fmt → Nat
  | .f32 => 127
  | .f64 => 1023

/-- `emin` (R58). -/
def Fmt.emin : Fmt → Int
  | .f32 => -126
  | .f64 => -1022

/-- `emax` (R58). -/
def Fmt.emax : Fmt → Int
  | .f32 => 127
  | .f64 => 1023

/-- The exponent of the format's smallest denormal: every finite value is an integer times `2^grid`. -/
def Fmt.grid (f : Fmt) : Int := f.emin - f.p + 1

/-- The sign bit. -/
def sign (f : Fmt) (x : BitVec f.w) : Bool := x.getLsbD (f.w - 1)

/-- The exponent field E (R58). -/
def expField (f : Fmt) (x : BitVec f.w) : Nat := x.toNat / 2 ^ (f.p - 1) % 2 ^ f.ebits

/-- The fraction field T (R58). -/
def frac (f : Fmt) (x : BitVec f.w) : Nat := x.toNat % 2 ^ (f.p - 1)

/-- The exponent field of infinities and NaNs, all ones. -/
def Fmt.expOnes (f : Fmt) : Nat := 2 ^ f.ebits - 1

/-- `qbit`: the top bit of the fraction (R58). -/
def qbit (f : Fmt) (x : BitVec f.w) : Bool := x.getLsbD (f.p - 2)

def isZero (f : Fmt) (x : BitVec f.w) : Bool := expField f x == 0 && frac f x == 0

def isDenormal (f : Fmt) (x : BitVec f.w) : Bool := expField f x == 0 && frac f x != 0

def isInf (f : Fmt) (x : BitVec f.w) : Bool := expField f x == f.expOnes && frac f x == 0

def isNaN (f : Fmt) (x : BitVec f.w) : Bool := expField f x == f.expOnes && frac f x != 0

def isQNaN (f : Fmt) (x : BitVec f.w) : Bool := isNaN f x && qbit f x

def isSNaN (f : Fmt) (x : BitVec f.w) : Bool := isNaN f x && !qbit f x

/-- The integer significand: T, with the hidden bit of a normal number. -/
def sig (f : Fmt) (x : BitVec f.w) : Nat := if expField f x = 0 then frac f x else 2 ^ (f.p - 1) + frac f x

/-- The exponent of the significand's unit: `|real(x)| = sig * 2^unit` for a finite pattern (R58). -/
def unitExp (f : Fmt) (x : BitVec f.w) : Int := (max (expField f x) 1 : Nat) - (f.bias : Int) - (f.p : Int) + 1

/-- `real(x) / 2^grid` as an integer, for a finite pattern (R58); an infinity, read by the same formula, lies beyond every
finite value, which is what a comparison asks of it (R75: `-inf < finite < +inf`). -/
def scaled (f : Fmt) (x : BitVec f.w) : Int :=
  let m : Int := (sig f x * 2 ^ (max (expField f x) 1 - 1) : Nat)
  if sign f x then -m else m

/-- The sign bit alone: the pattern of a zero of that sign. -/
def zeroOf (f : Fmt) (s : Bool) : BitVec f.w := if s then BitVec.ofNat f.w (2 ^ (f.w - 1)) else 0

/-- The infinity of a sign. -/
def infOf (f : Fmt) (s : Bool) : BitVec f.w := zeroOf f s ||| BitVec.ofNat f.w (f.expOnes * 2 ^ (f.p - 1))

/-- `maxfinite` of a sign (R63). -/
def maxFiniteOf (f : Fmt) (s : Bool) : BitVec f.w := zeroOf f s ||| BitVec.ofNat f.w (f.expOnes * 2 ^ (f.p - 1) - 1)

/-- The default NaN (R59). -/
def defaultNaN : (f : Fmt) → BitVec f.w
  | .f32 => 0xFFC00000#32
  | .f64 => 0xFFF8000000000000#64

/-- `quiet(x)`: set qbit (R60). -/
def quiet : (f : Fmt) → BitVec f.w → BitVec f.w
  | .f32, x => x ||| 0x00400000#32
  | .f64, x => x ||| 0x0008000000000000#64

/-- Invert the sign bit (R98: `b XOR signbit_w`). -/
def negate (f : Fmt) (x : BitVec f.w) : BitVec f.w := x ^^^ zeroOf f true

/-- `encode_w(s, r)` for `r = m * 2^k`, a value of the format's grid not above `2^emax * (2 - 2^(1-p))`: the pattern with sign
`s` whose `real` is `r` (R62). The significand is aligned to `2^q`, the grid of the value's own binade; as a number, the
pattern below the sign is `q`'s distance from the format's grid in units of the hidden bit, plus the significand. -/
def encodeReal (f : Fmt) (s : Bool) (m : Nat) (k : Int) : BitVec f.w :=
  if m = 0 then zeroOf f s
  else
    let q : Int := max (k + m.log2) f.emin - f.p + 1
    let c : Nat := if q ≤ k then m * 2 ^ (k - q).toNat else m / 2 ^ (q - k).toNat
    zeroOf f s ||| BitVec.ofNat f.w ((q - f.grid).toNat * 2 ^ (f.p - 1) + c)

end Sys2Proof.Machine
end

