-- ==== Sys2Proof/Machine/Flags.lean ====
section
/-!
DEFINITION. The status context (spec/40_status_context.md R52, R53), the status flags and what sets them: the report (R56), DAZ
(R66), the denormal flag (R67), the NaN rules (R68, R69) and the invalid result (R70).
-/

namespace Sys2Proof.Machine

/-- The flags, as sets of one (R52: bit 0 IE, 1 DE, 2 ZE, 3 OE, 4 UE, 5 PE). -/
def flagIE : FlagSet := 0b000001
def flagDE : FlagSet := 0b000010
def flagZE : FlagSet := 0b000100
def flagOE : FlagSet := 0b001000
def flagUE : FlagSet := 0b010000
def flagPE : FlagSet := 0b100000

/-- The flag set, if the condition holds. -/
def flagIf (c : Bool) (fl : FlagSet) : FlagSet := if c then fl else 0

/-- The status context `st` of one call (R52). -/
structure Status where
  rc : RoundMode
  flags : FlagSet
  suppress : FlagSet
  masks : FlagSet
  daz : Bool
  ftz : Bool
deriving DecidableEq, Repr

/-- What a lane primitive answers: the result lane, and the flags it sets. The flags of a call accumulate by OR over its lanes
and steps (R55), so a primitive need not see those that other lanes have set. -/
structure LaneRes (f : Fmt) where
  val : BitVec f.w
  flags : FlagSet
deriving DecidableEq, Repr

/-- `build(MX, desc)` (R53): the status context, fresh for each call. -/
def build (mx : BitVec 32) (d : Desc) : Status :=
  let isRound := d.opIn [.round]
  { rc :=
      if d.rcv then RoundMode.ofBits d.rcm
      else if isRound && !d.imm8.getLsbD 2 then RoundMode.ofBits (d.imm8.extractLsb' 0 2)
      else RoundMode.ofBits (mx.extractLsb' 13 2)
    flags := 0
    suppress :=
      if d.rcv || d.sae then 0b111111
      else flagIf (isRound && d.imm8.getLsbD 3) flagPE
    masks := mx.extractLsb' 7 6
    daz := mx.getLsbD 6
    ftz := mx.getLsbD 15 && mx.getLsbD 11 }

/-- Whether an operation builds and reports a status context: all but RCP, RSQRT and TEST (R54). -/
def statusAffecting (d : Desc) : Bool := !d.opIn [.rcp, .rsqrt, .test]

/-- `FLAGS`: the flags set and not suppressed (R56). -/
def report (st : Status) : FlagSet := st.flags &&& ~~~st.suppress

/-- `OM`, the overflow mask, is 1 (R63). -/
def Status.overflowMasked (st : Status) : Bool := st.masks.getLsbD 3

/-- `UM`, the underflow mask, is 1 (R64). -/
def Status.underflowMasked (st : Status) : Bool := st.masks.getLsbD 4

/-- `daz_w(x, st)` (R66). -/
def dazW (f : Fmt) (st : Status) (x : BitVec f.w) : BitVec f.w :=
  if st.daz && isDenormal f x then zeroOf f (sign f x) else x

/-- DE, when one of two operands is a denormal (R67). -/
def deFlag (f : Fmt) (a b : BitVec f.w) : FlagSet := flagIf (isDenormal f a || isDenormal f b) flagDE

/-- `NaN2_w(a, b, st)`, one of the operands being a NaN (R68). -/
def nan2 (f : Fmt) (a b : BitVec f.w) : LaneRes f :=
  { val := if isNaN f a then quiet f a else quiet f b
    flags := flagIf (isSNaN f a || isSNaN f b) flagIE }

/-- `NaN1_w(a, st)`, the operand being a NaN (R69). -/
def nan1 (f : Fmt) (a : BitVec f.w) : LaneRes f :=
  { val := quiet f a, flags := flagIf (isSNaN f a) flagIE }

/-- An invalid operation with no NaN operand: the default NaN, with IE beside the flags already set (R70). -/
def invalid (f : Fmt) (fl : FlagSet) : LaneRes f := { val := defaultNaN f, flags := fl ||| flagIE }

end Sys2Proof.Machine
end

