-- ==== Sys2Proof/Machine/Round.lean ====
section
/-!
DEFINITION. Rounding (spec/40_status_context.md R61 to R65): an exact positive real, its rounding to an integer multiple of a power
of two, and `RoundPack_w` with overflow, tininess, underflow and flush to zero.
-/

namespace Sys2Proof.Machine

/-- An exact positive real number (`n`, `d` positive): `n / d * 2^e`, or `sqrt(n) * 2^e`. -/
inductive Mag
  | ratio (n d : Nat) (e : Int)
  | root (n : Nat) (e : Int)
deriving DecidableEq, Repr

/-- The integer part of the square root of `n`, when `n < 4^(steps)`: bit by bit from the top. -/
def isqrtFrom (n : Nat) : Nat → Nat → Nat
  | 0, r => r
  | k + 1, r =>
    let r' := r + 2 ^ k
    if r' * r' ≤ n then isqrtFrom n k r' else isqrtFrom n k r

/-- The integer part of the square root. -/
def isqrt (n : Nat) : Nat := isqrtFrom n (n.log2 / 2 + 1) 0

/-- `2^k` for `k ≥ 0`, and 1 below: with `pow2 (-k)` it brings `2^k` to one side or the other of a comparison of integers. -/
def pow2 (k : Int) : Nat := 2 ^ k.toNat

/-- Compare the real with `a * 2^k`. -/
def Mag.cmp (v : Mag) (a : Nat) (k : Int) : Ordering :=
  match v with
  | .ratio n d e => compare (n * pow2 (e - k)) (a * d * pow2 (k - e))
  | .root n e => compare (n * pow2 (2 * (e - k))) (a * a * pow2 (2 * (k - e)))

/-- `floor(v / 2^k)`. -/
def Mag.floor (v : Mag) (k : Int) : Nat :=
  match v with
  | .ratio n d e => n * pow2 (e - k) / (d * pow2 (k - e))
  | .root n e => isqrt (n * pow2 (2 * (e - k)) / pow2 (2 * (k - e)))

/-- `floor(log2(v))`. -/
def Mag.log2 (v : Mag) : Int :=
  match v with
  | .ratio n d e =>
    let l : Int := e + n.log2 - d.log2
    if v.cmp 1 l = .lt then l - 1 else l
  | .root n e => e + (n.log2 / 2 : Nat)

/-- Whether a number strictly between `q` and `q + 1` rounds to `q + 1`, by its place to the half between them (R61). -/
def roundsUp (m : RoundMode) (s : Bool) (q : Nat) (half : Ordering) : Bool :=
  match m with
  | .rn => half == .gt || (half == .eq && q % 2 == 1)
  | .rz => false
  | .ru => !s
  | .rd => s

/-- `rint(v / 2^k, m, s)` (R61), and whether that is exact. -/
def Mag.rint (v : Mag) (k : Int) (m : RoundMode) (s : Bool) : Nat × Bool :=
  let q := v.floor k
  if v.cmp q k = .eq then (q, true)
  else (if roundsUp m s q (v.cmp (2 * q + 1) (k - 1)) then q + 1 else q, false)

/-- `2^t ≤ m * 2^k`. -/
def reaches (m : Nat) (k t : Int) : Bool := decide (pow2 (t - k) ≤ m * pow2 (k - t))

/-- `Overflow_w(s, v, ru, st)`; `exact` says that `ru = v` (R63). -/
def overflow (f : Fmt) (st : Status) (s exact : Bool) : LaneRes f :=
  { val :=
      match st.rc with
      | .rn => infOf f s
      | .rz => maxFiniteOf f s
      | .ru => if s then maxFiniteOf f true else infOf f false
      | .rd => if s then infOf f true else maxFiniteOf f false
    flags := flagOE ||| flagIf (st.overflowMasked || !exact) flagPE }

/-- `RoundPack_w(s, v, st)` (R62, R64). -/
def roundPack (p : Params) (f : Fmt) (st : Status) (s : Bool) (v : Mag) : LaneRes f :=
  let e := v.log2
  let k := e - f.p + 1
  let ru := v.rint k st.rc s
  if reaches ru.1 k (f.emax + 1) then overflow f st s ru.2
  else
    let tiny :=
      match p.tininess with
      | .after => !reaches ru.1 k f.emin
      | .before => decide (e < f.emin)
    if st.ftz && tiny then { val := zeroOf f s, flags := flagUE ||| flagPE }
    else
      let q := max e f.emin - f.p + 1
      let r := v.rint q st.rc s
      { val := encodeReal f s r.1 q
        flags := flagIf (!r.2) flagPE ||| flagIf (tiny && (!r.2 || !st.underflowMasked)) flagUE }

/-- `RoundPack_w` of an operation that has set flags already. -/
def roundPackWith (p : Params) (f : Fmt) (st : Status) (fl : FlagSet) (s : Bool) (v : Mag) : LaneRes f :=
  let r := roundPack p f st s v
  { r with flags := fl ||| r.flags }

/-- The exact zero sum of two operands (R65): the zero of their sign when both are zeros of one sign, else `+0`, and `-0` when
rounding down. -/
def zeroSum (f : Fmt) (st : Status) (a b : BitVec f.w) : BitVec f.w :=
  if isZero f a && isZero f b && sign f a == sign f b then zeroOf f (sign f a)
  else zeroOf f (st.rc == .rd)

end Sys2Proof.Machine
end

