-- ==== Sys2Proof/Machine/Operands.lean ====
section
/-!
DEFINITION. Operands: the register files, the lanes of a value (spec/00_scope.md R10, spec/20_memory.md R29), the resolver
(spec/42_lane_resolver.md R85), the lane enables (R87), the write-back rules (R88 to R92), and the lanes each shape of
operation reads (R86, R90, R95).
-/

namespace Sys2Proof.Machine

/-- Read a vector register (R11). -/
def State.readX (s : State) (r : VReg) : VecWord := s.x[r.toNat]'(r.isLt)

/-- The part of a value that a register of the parameters' width holds: MAXVL bits (R7, R19). -/
def clip (p : Params) (v : VecWord) : VecWord :=
  match p.maxvl with
  | .w512 => v
  | .w256 => { v with b2 := 0, b3 := 0 }

/-- Write a vector register, all MAXVL bits of it (R11, R32). -/
def State.writeX (s : State) (r : VReg) (v : VecWord) : State :=
  { s with x := s.x.set r.toNat (clip s.cfg v) (r.isLt) }

/-- Read a write-mask register (R20). -/
def State.readK (s : State) (r : KReg) : BitVec 64 := s.k[r.toNat]'(r.isLt)

/-- Write a write-mask register (R20). -/
def State.writeK (s : State) (r : KReg) (v : BitVec 64) : State := { s with k := s.k.set r.toNat v (r.isLt) }

/-- `Bmem`: the memory operand value the core supplies with the call it is sending (R14). Where no call stands at the head of the
inputs the core supplies none, and the spec leaves the value to the core (R28): the model takes the zero vector (assumption
log 13, DESIGN CHOICE). -/
def State.bmem (s : State) : VecWord :=
  match s.inputs with
  | .call _ m :: _ => m
  | _ => VecWord.zero

/-- Lanes in a 128-bit sub-block (R85). -/
def Fmt.perBlock : Fmt → Nat
  | .f32 => 4
  | .f64 => 2

/-- Lane `l` of a sub-block (R29). -/
def blockLane (f : Fmt) (b : Block) (l : Nat) : BitVec f.w := b.extractLsb' (f.w * l) f.w

/-- `lane_w(V, i)` (R10): lane `i` of sub-block `i / (128/w)` (R86). -/
def lane (f : Fmt) (v : VecWord) (i : Nat) : BitVec f.w := blockLane f (v.block (i / f.perBlock)) (i % f.perBlock)

/-- The sub-block whose lane `l` is `g l`. -/
def blockOf : (f : Fmt) → (Nat → BitVec f.w) → Block
  | .f32, g => g 3 ++ g 2 ++ g 1 ++ g 0
  | .f64, g => g 1 ++ g 0

/-- The sub-block with lane 0 replaced (R91). -/
def setLow : (f : Fmt) → Block → BitVec f.w → Block
  | .f32, b, x => b.extractLsb' 32 96 ++ x
  | .f64, b, x => b.extractLsb' 64 64 ++ x

/-- `active`, the active lane count (R85): bits of the active length over the element width. -/
def activeLanes (f : Fmt) (vl : BitVec 2) : Nat := 128 * 2 ^ vl.toNat / f.w

/-- `cap`, the register lane capacity (R85). -/
def laneCapacity (f : Fmt) (p : Params) : Nat := p.maxvl.bits / f.w

/-- `nsub`, the number of sub-blocks (R85). -/
def subBlocks (vl : BitVec 2) : Nat := 2 ^ vl.toNat

/-- How many lanes a call computes: lane 0 for a scalar form (R90), else every active lane. -/
def computedLanes (f : Fmt) (d : Desc) : Nat := if d.scalar then 1 else activeLanes f d.vl

/-- `KM`, the write-mask lanes (R14): all ones without a mask, else the low 16 bits of `k[KSEL]`. -/
def State.maskLanes (s : State) (d : Desc) : BitVec 16 :=
  if d.ksel = 0 then BitVec.allOnes 16 else (s.readK d.ksel).extractLsb' 0 16

/-- What a call samples before anything is written (R14). -/
structure CallIn where
  a : VecWord
  b : VecWord
  dold : VecWord
  mx : BitVec 32
  km : BitVec 16
deriving DecidableEq, Repr

/-- The inputs of a call of the descriptor (R14). -/
def State.sample (s : State) (d : Desc) : CallIn :=
  { a := s.readX d.src1
    b := if d.mem then s.bmem else s.readX d.src2
    dold := s.readX d.dst
    mx := s.mxcsr
    km := s.maskLanes d }

/-- The lane enable `E[i]` (R87). -/
def CallIn.enabled (ci : CallIn) (i : Nat) : Bool := ci.km.getLsbD i

/-- Packed non-legacy write-back (R88), sub-block by sub-block: the active lanes computed, merged or zeroed, all above zero. -/
def writeBackPacked (f : Fmt) (d : Desc) (ci : CallIn) (t : Nat → BitVec f.w) : VecWord :=
  let g (i : Nat) : BitVec f.w := if ci.enabled i then t i else if d.kz then 0 else lane f ci.dold i
  let blk (j : Nat) : Block := if j < subBlocks d.vl then blockOf f (fun l => g (j * f.perBlock + l)) else 0
  { b0 := blk 0, b1 := blk 1, b2 := blk 2, b3 := blk 3 }

/-- Packed legacy write-back (R89): bits 127:0 computed, those above unmodified. -/
def writeBackLegacyPacked (f : Fmt) (ci : CallIn) (t : Nat → BitVec f.w) : VecWord := { ci.dold with b0 := blockOf f t }

/-- Scalar legacy write-back (R91): lane 0 computed, every bit above it unmodified. -/
def writeBackLegacyScalar (f : Fmt) (ci : CallIn) (t : Nat → BitVec f.w) : VecWord :=
  { ci.dold with b0 := setLow f ci.dold.b0 (t 0) }

/-- Scalar non-legacy write-back (R92): lane 0 computed, merged or zeroed, the rest of bits 127:0 from operand A, those above
zero. -/
def writeBackScalar (f : Fmt) (d : Desc) (ci : CallIn) (t : Nat → BitVec f.w) : VecWord :=
  let low : BitVec f.w := if ci.enabled 0 then t 0 else if d.kz then 0 else lane f ci.dold 0
  { b0 := setLow f ci.a.b0 low, b1 := 0, b2 := 0, b3 := 0 }

/-- The write-back of a descriptor's form (R88 to R92). -/
def writeBack (f : Fmt) (d : Desc) (ci : CallIn) (t : Nat → BitVec f.w) : VecWord :=
  match d.scalar, d.nl with
  | false, true => writeBackPacked f d ci t
  | false, false => writeBackLegacyPacked f ci t
  | true, false => writeBackLegacyScalar f ci t
  | true, true => writeBackScalar f d ci t

/-- The lane results of an operation: from the parameters, the status context and the operands A and B, lane `i` of T and
the flags its computation sets. -/
abbrev LaneOp (f : Fmt) := Params → Status → VecWord → VecWord → Nat → LaneRes f

/-- A binary primitive applied lane by lane (R95). -/
def binaryLanes (f : Fmt) (op : Params → (f : Fmt) → Status → BitVec f.w → BitVec f.w → LaneRes f) : LaneOp f :=
  fun p st a b i => op p f st (lane f a i) (lane f b i)

/-- A unary primitive applied lane by lane to operand B (R95). -/
def unaryLanes (f : Fmt) (op : Params → (f : Fmt) → Status → BitVec f.w → LaneRes f) : LaneOp f :=
  fun p st _ b i => op p f st (lane f b i)

/-- A primitive applied to adjacent lane pairs within each sub-block (R86, R165): operand A's pairs give the low result lanes
of the sub-block and operand B's the high ones; the lower-numbered lane is the first operand. -/
def pairLanes (f : Fmt) (op : Params → (f : Fmt) → Status → BitVec f.w → BitVec f.w → LaneRes f) : LaneOp f :=
  fun p st a b i =>
    let j := i / f.perBlock
    let l := i % f.perBlock
    let half := f.perBlock / 2
    let v := if l < half then a else b
    let base := j * f.perBlock + 2 * (if l < half then l else l - half)
    op p f st (lane f v base) (lane f v (base + 1))

/-- The OR of the flags that the first `n` lanes set, a disabled lane setting none (R55, R87). -/
def orFlags (enabled : Nat → Bool) (fl : Nat → FlagSet) : Nat → FlagSet
  | 0 => 0
  | n + 1 => orFlags enabled fl n ||| (if enabled n then fl n else 0)

end Sys2Proof.Machine
end

