-- ==== Sys2Proof/Machine/Ops.lean ====
section
/-!
DEFINITION. The shared operations: one call of the block (spec/10_state.md R14, spec/42_lane_resolver.md R94), the core's commit of
it (spec/60_exceptions.md R211), taking the SIMD floating-point exception (R212) and the return from its handler (R216), and the
core's own actions on the state the block reads.
-/

namespace Sys2Proof.Machine

/-- The outputs of a `Done` call (R14). -/
structure CallOut where
  r : VecWord
  we : Bool
  flags : FlagSet
  ccv : Bool
  zf : Bool
  cf : Bool
deriving DecidableEq, Repr

/-- The frame of a lane-computing call (R94), the descriptor being legal: the status context is built, the enabled lanes
computed, the result written back, the flags reported. A call that is not status-affecting reports none (R54). -/
def blockCall (p : Params) (d : Desc) (f : Fmt) (op : LaneOp f) (ci : CallIn) : CallOut :=
  let st := build ci.mx d
  let t (i : Nat) := op p st ci.a ci.b i
  let raised := orFlags ci.enabled (fun i => (t i).flags) (computedLanes f d)
  { r := writeBack f d ci (fun i => (t i).val)
    we := true
    flags := if statusAffecting d then report { st with flags := raised } else 0
    ccv := false
    zf := false
    cf := false }

/-- Take the SIMD floating-point exception (R212): `#XM` when CR4.OSXMMEXCPT is 1, else `#UD`. The core leaves its
instruction pointer at the faulting call, which is kept to be sent again after the handler's return (R216); what it sends
next is the handler's. Nothing else of the call is written. Assumption log 7 (DESIGN CHOICE). -/
def takeException (s : State) : State :=
  { s with
    traps := { vector := if s.osxmmexcpt then .xm else .ud, faulting := s.inputs.head? } :: s.traps
    inputs := s.inputs.tail }

/-- A call with the memory operand value given (R14); another input has none. -/
def CoreInput.withBmem (m : VecWord) : CoreInput → CoreInput
  | .call w _ => .call w m
  | c => c

/-- Return from the exception handler (R216): the faulting call is sent again, as a new call, which sees the state the handler
left. The spec says nothing of the memory operand of that new call but R14's rule that the core supplies it with the call: the
return brings the value, which need not be that of the call that faulted (assumption log 7, DESIGN CHOICE). -/
def returnFromException (m : VecWord) (s : State) : Host.Outcome State Fault Refusal :=
  match s.traps with
  | [] => .fault .noHandler
  | t :: ts => .next { s with traps := ts, inputs := (t.faulting.map (CoreInput.withBmem m)).toList ++ s.inputs.tail }

/-- The call completes: the core advances its instruction pointer (R18, R211). -/
def complete (s : State) : State := { s with inputs := s.inputs.tail }

/-- The flags whose mask bit in MXCSR is 0 (R211). -/
def unmasked (mx : BitVec 32) (fl : FlagSet) : FlagSet := fl &&& ~~~mx.extractLsb' 7 6

/-- `rec`: the flags the core records (R211). With P_CORE_FILTER, an unmasked IE, DE or ZE leaves only those three. -/
def recorded (p : Params) (mx : BitVec 32) (fl : FlagSet) : FlagSet :=
  if unmasked mx fl &&& 0b000111 != 0 && p.coreFilter then fl &&& 0b000111 else fl

/-- OR flags into MXCSR[5:0] (R211): sticky, never cleared. -/
def State.stick (s : State) (fl : FlagSet) : State := { s with mxcsr := s.mxcsr ||| fl.zeroExtend 32 }

/-- `Commit` (R211): record the flags; on an unmasked one take the exception and write nothing else; otherwise write the
register and the condition flags the call writes, and complete. -/
def commit (d : Desc) (o : CallOut) (s : State) : State :=
  let s1 := s.stick (recorded s.cfg s.mxcsr o.flags)
  if unmasked s.mxcsr o.flags != 0 then takeException s1
  else
    let s2 := if o.we then s1.writeX d.dst o.r else s1
    let s3 := if o.ccv then { s2 with cond := { CondFlags.clear with zf := o.zf, cf := o.cf } } else s2
    complete s3

/-- One call (R94, R211): an illegal descriptor is refused before anything else (R15, R45, R214). -/
def call (d : Desc) (f : Fmt) (op : LaneOp f) (s : State) : Host.Outcome State Fault Refusal :=
  match refuseReason s.cfg d with
  | some r => .refused (.descriptor r)
  | none => .next (commit d (blockCall s.cfg d f op (s.sample d)) s)

/-- How many free values a call that may draw takes from the counter: one for each lane a register can have. -/
def drawsPerCall : Nat := 16

/-- One call of an operation whose lanes may be free values (SCALEF, R135): the lane operation is given the number of the first
one, and the counter moves past those of this call. -/
def callDrawing (d : Desc) (f : Fmt) (op : Nat → LaneOp f) (s : State) : Host.Outcome State Fault Refusal :=
  call d f (op s.draws) { s with draws := s.draws + drawsPerCall }

/-- Write MXCSR (R21): a 1 in bits 31:16 faults in the core, where the model stops (assumption log 8, DESIGN CHOICE).
Every other bit takes what is written, DAZ among them: R21 gives DAZ the access "RW (if supported)" and R7 has no parameter for
it, and the model has it supported (assumption log 12, DESIGN CHOICE). -/
def coreWriteMxcsr (v : BitVec 32) (s : State) : Host.Outcome State Fault Refusal :=
  if v.extractLsb' 16 16 = 0 then .next { s with mxcsr := v } else .fault .mxcsrReservedBits

/-- Write a vector register by index (R14, R19); the parameters have it or there is no such register, and the model
stops (assumption log 8, DESIGN CHOICE). -/
def coreWriteX (r : VReg) (v : VecWord) (s : State) : Host.Outcome State Fault Refusal :=
  if s.cfg.hasReg r then .next (s.writeX r v) else .fault .noSuchRegister

/-- INIT (R226): MXCSR, the vector registers and the mask registers keep their values, the arithmetic flags and
CR4.OSXMMEXCPT are 0, and no exception is being handled any more. -/
def coreInit (s : State) : State := { s with cond := CondFlags.clear, osxmmexcpt := false, traps := [] }

/-- Power-on RESET (R226); what the core sends next, the parameters and the model's counter stand. -/
def corePowerOn (s : State) : State := { State.resetWith s.cfg with inputs := s.inputs, draws := s.draws }

/-- What an action of the core's own does, once it has been taken from the inputs. -/
def coreAction (c : CoreInput) (s : State) : Host.Outcome State Fault Refusal :=
  match c with
  | .call _ _ => .next s
  | .writeX r v => coreWriteX r v (complete s)
  | .writeK r v => .next ((complete s).writeK r v)
  | .writeMxcsr v => coreWriteMxcsr v (complete s)
  | .writeOsxmmexcpt b => .next { complete s with osxmmexcpt := b }
  | .writeCond cf => .next { complete s with cond := cf }
  | .handlerReturn m => returnFromException m s
  | .init => .next (coreInit (complete s))
  | .powerOn => .next (corePowerOn (complete s))

/-- The core sends nothing: nothing changes (R16, R34). -/
def idle (s : State) : State := s

/-- The core sends the block a descriptor word: it is refused (R15), or its instruction runs. -/
def sendCall (run : Instr → State → Host.Outcome State Fault Refusal) (w : BitVec 64) (s : State) :
    Host.Outcome State Fault Refusal :=
  match decode s.cfg w with
  | .error r => .refused (.descriptor r)
  | .ok i => run i s

/-- Put a descriptor at the head of the inputs, in the place of what stood there, with the memory operand of that,
and with the zero vector where no call stood there (assumption log 13, DESIGN CHOICE). -/
def State.placeCall (s : State) (w : BitVec 64) : State := { s with inputs := .call w s.bmem :: s.inputs.tail }

end Sys2Proof.Machine
end

