-- ==== Sys2Proof/Machine/Approx.lean ====
section
/-!
DEFINITION. The approximate reciprocal and reciprocal square root (spec/47_approx.md): R193 to R195, and a meaning for each of the
eight instructions R196 to R203. The approximations of positive normal operands are free functions held to the properties the rules
state.
-/

namespace Sys2Proof.Machine

/-- The pattern is a positive normal binary32. -/
def isPosNormal (x : BitVec 32) : Bool :=
  !sign .f32 x && expField .f32 x != 0 && expField .f32 x != Fmt.f32.expOnes

/-- `|real(r) - 1/real(x)| <= 1.5 * 2^-12 * (1/real(x))`, for positive normal `x` and `r` (R194 (ii)): it is
`|real(r) * real(x) - 1| <= 3 / 2^13`, written over the integers. -/
def rcpWithin (x r : BitVec 32) : Bool :=
  let t := unitExp .f32 x + unitExp .f32 r
  let prod : Int := (sig .f32 x * sig .f32 r * pow2 t : Nat)
  let one : Int := (pow2 (-t) : Nat)
  decide ((prod - one).natAbs * 2 ^ 13 ≤ 3 * one.natAbs)

/-- `1/real(x) < 2^-126 * (1 + 1.5 * 2^-12)`: the result may be `+0` (R194 (iii)). -/
def rcpMayFlush (x : BitVec 32) : Bool :=
  decide (2 ^ 139 * pow2 (-unitExp .f32 x) < 8195 * sig .f32 x * pow2 (unitExp .f32 x))

/-- `1/real(x) < 2^-126 * (1 - 1.5 * 2^-12)`: the result must be `+0` (R194 (iii)). -/
def rcpMustFlush (x : BitVec 32) : Bool :=
  decide (2 ^ 139 * pow2 (-unitExp .f32 x) < 8189 * sig .f32 x * pow2 (unitExp .f32 x))

/-- The properties (i) to (iii) of R194, of the answer `r` on `x`. -/
def rcpAllowed (x r : BitVec 32) : Bool :=
  if r = 0 then rcpMayFlush x else isPosNormal r && rcpWithin x r && !rcpMustFlush x

/-- An answer that R194 allows: `1/x` cut to 21 bits, `+0` below the normal range. It stands in only where the free function has
none of its own that R194 allows, so that RCP32 is total with R194's properties whatever the free function is. -/
def rcpFallback (x : BitVec 32) : BitVec 32 :=
  let q := 2 ^ 44 / sig .f32 x
  let k := -44 - unitExp .f32 x
  if reaches q k Fmt.f32.emin then encodeReal .f32 false q k else 0

/-- `RCP32` (R7, R194): OPEN, with R194's properties. -/
def rcp32 (x : BitVec 32) : BitVec 32 :=
  if rcpAllowed x (Config.rcp32Raw x) then Config.rcp32Raw x else rcpFallback x

/-- `|real(r) - 1/sqrt(real(x))| <= 1.5 * 2^-12 * (1/sqrt(real(x)))`, for positive normal `x` and `r` (R195): it is
`(1 - 3/2^13)^2 <= real(r)^2 * real(x) <= (1 + 3/2^13)^2`, written over the integers. -/
def rsqrtWithin (x r : BitVec 32) : Bool :=
  let t := unitExp .f32 x + 2 * unitExp .f32 r
  let prod := sig .f32 x * sig .f32 r ^ 2 * pow2 t * 2 ^ 26
  let one := pow2 (-t)
  decide (8189 ^ 2 * one ≤ prod) && decide (prod ≤ 8195 ^ 2 * one)

/-- The properties of R195, of the answer `r` on `x`. -/
def rsqrtAllowed (x r : BitVec 32) : Bool := isPosNormal r && rsqrtWithin x r

/-- An answer that R195 allows: `1/sqrt(x)` cut to about 20 bits; it stands in as `rcpFallback` does. -/
def rsqrtFallback (x : BitVec 32) : BitVec 32 :=
  let u := unitExp .f32 x
  if u % 2 = 0 then encodeReal .f32 false (isqrt (2 ^ 64 / sig .f32 x)) (-32 - u / 2)
  else encodeReal .f32 false (isqrt (2 ^ 64 / (2 * sig .f32 x))) (-32 - (u - 1) / 2)

/-- `RSQRT32` (R7, R195): OPEN, with R195's properties. -/
def rsqrt32 (x : BitVec 32) : BitVec 32 :=
  if rsqrtAllowed x (Config.rsqrt32Raw x) then Config.rsqrt32Raw x else rsqrtFallback x

/-- `Rcp_32` (R194). -/
def rcpLane (b : BitVec 32) : BitVec 32 :=
  if isNaN .f32 b then quiet .f32 b
  else if isZero .f32 b || isDenormal .f32 b then infOf .f32 (sign .f32 b)
  else if isInf .f32 b then zeroOf .f32 (sign .f32 b)
  else zeroOf .f32 (sign .f32 b) ||| (rcp32 (b &&& 0x7FFFFFFF#32) &&& 0x7FFFFFFF#32)

/-- `Rsqrt_32` (R195). -/
def rsqrtLane (b : BitVec 32) : BitVec 32 :=
  if isNaN .f32 b then quiet .f32 b
  else if isZero .f32 b || isDenormal .f32 b then infOf .f32 (sign .f32 b)
  else if sign .f32 b then defaultNaN .f32
  else if isInf .f32 b then zeroOf .f32 false
  else rsqrt32 b

/-- `Rcp_32` lane by lane on operand B; no flag, whatever the operand (R193). -/
def rcpLanes : LaneOp .f32 := fun _ _ _ b i => { val := rcpLane (lane .f32 b i), flags := 0 }

/-- `Rsqrt_32` lane by lane on operand B; no flag, whatever the operand (R193). -/
def rsqrtLanes : LaneOp .f32 := fun _ _ _ b i => { val := rsqrtLane (lane .f32 b i), flags := 0 }

/-- `RCPPS` (R196): packed binary32 approximate reciprocal, legacy form. -/
def execRcpps (dst : VReg) (src : Src) (s : State) : Host.Outcome State Fault Refusal :=
  call (.legacy .rcp false false dst src 0) .f32 rcpLanes s

/-- `RCPSS` (R197): scalar binary32 approximate reciprocal, legacy form. -/
def execRcpss (dst : VReg) (src : Src) (s : State) : Host.Outcome State Fault Refusal :=
  call (.legacy .rcp true false dst src 0) .f32 rcpLanes s

/-- `VRCPPS` (R198): packed binary32 approximate reciprocal, non-legacy form. -/
def execVrcpps (vl : VLen) (dst : VReg) (src : Src) (s : State) : Host.Outcome State Fault Refusal :=
  call (.nonLegacy .rcp false false vl .plain dst 0 src 0) .f32 rcpLanes s

/-- `VRCPSS` (R199): scalar binary32 approximate reciprocal, non-legacy form. -/
def execVrcpss (dst src1 : VReg) (src2 : Src) (s : State) : Host.Outcome State Fault Refusal :=
  call (.nonLegacy .rcp true false .v128 .plain dst src1 src2 0) .f32 rcpLanes s

/-- `RSQRTPS` (R200): packed binary32 approximate reciprocal square root, legacy form. -/
def execRsqrtps (dst : VReg) (src : Src) (s : State) : Host.Outcome State Fault Refusal :=
  call (.legacy .rsqrt false false dst src 0) .f32 rsqrtLanes s

/-- `RSQRTSS` (R201): scalar binary32 approximate reciprocal square root, legacy form. -/
def execRsqrtss (dst : VReg) (src : Src) (s : State) : Host.Outcome State Fault Refusal :=
  call (.legacy .rsqrt true false dst src 0) .f32 rsqrtLanes s

/-- `VRSQRTPS` (R202): packed binary32 approximate reciprocal square root, non-legacy form. -/
def execVrsqrtps (vl : VLen) (dst : VReg) (src : Src) (s : State) : Host.Outcome State Fault Refusal :=
  call (.nonLegacy .rsqrt false false vl .plain dst 0 src 0) .f32 rsqrtLanes s

/-- `VRSQRTSS` (R203): scalar binary32 approximate reciprocal square root, non-legacy form. -/
def execVrsqrtss (dst src1 : VReg) (src2 : Src) (s : State) : Host.Outcome State Fault Refusal :=
  call (.nonLegacy .rsqrt true false .v128 .plain dst src1 src2 0) .f32 rsqrtLanes s

end Sys2Proof.Machine
end

