-- ==== Sys2Proof/Machine/Compare.lean ====
section
/-!
DEFINITION. The comparison predicate table and the compares (spec/41_compare.md): R72 to R76, and a meaning for each of the eight
instructions R77 to R84.
-/

namespace Sys2Proof.Machine

/-- The relation of two operands (R73): UN when at least one is a NaN. -/
inductive Relation
  | gt
  | lt
  | eq
  | un
deriving DecidableEq, Repr

/-- One entry of the predicate table (R73): the result for each relation, and whether the class is S. -/
structure Predicate where
  gt : Bool
  lt : Bool
  eq : Bool
  un : Bool
  signalling : Bool
deriving DecidableEq, Repr

/-- The table for codes 0 to 15 (R73). -/
def legacyPredicate : Nat → Predicate
  | 0 => ⟨false, false, true, false, false⟩
  | 1 => ⟨false, true, false, false, true⟩
  | 2 => ⟨false, true, true, false, true⟩
  | 3 => ⟨false, false, false, true, false⟩
  | 4 => ⟨true, true, false, true, false⟩
  | 5 => ⟨true, false, true, true, true⟩
  | 6 => ⟨true, false, false, true, true⟩
  | 7 => ⟨true, true, true, false, false⟩
  | 8 => ⟨false, false, true, true, false⟩
  | 9 => ⟨false, true, false, true, true⟩
  | 10 => ⟨false, true, true, true, true⟩
  | 11 => ⟨false, false, false, false, false⟩
  | 12 => ⟨true, true, false, false, false⟩
  | 13 => ⟨true, false, true, false, true⟩
  | 14 => ⟨true, false, false, false, true⟩
  | _ => ⟨true, true, true, true, false⟩

/-- The predicate of a code (R72, R73): codes 16 to 31 repeat 0 to 15 with the other class. -/
def predicate (c : BitVec 5) : Predicate :=
  let e := legacyPredicate (c.toNat % 16)
  { e with signalling := e.signalling != decide (16 ≤ c.toNat) }

/-- The result of a predicate for a relation. -/
def Predicate.holds (e : Predicate) : Relation → Bool
  | .gt => e.gt
  | .lt => e.lt
  | .eq => e.eq
  | .un => e.un

/-- The predicate code of an immediate (R74): its low three bits in a legacy form, its low five in a non-legacy one. -/
def legacyCode (imm : BitVec 8) : BitVec 5 := (imm.extractLsb' 0 3).setWidth 5
def vexCode (imm : BitVec 8) : BitVec 5 := imm.extractLsb' 0 5

/-- The relation of two operands (R75). -/
def relate (f : Fmt) (a b : BitVec f.w) : Relation :=
  if isNaN f a || isNaN f b then .un
  else if scaled f a < scaled f b then .lt
  else if scaled f b < scaled f a then .gt
  else .eq

/-- `Cmp_w` (R75). -/
def cmpW (c : BitVec 5) (_p : Params) (f : Fmt) (st : Status) (a b : BitVec f.w) : LaneRes f :=
  let a := dazW f st a
  let b := dazW f st b
  { val := if (predicate c).holds (relate f a b) then BitVec.allOnes f.w else 0
    flags :=
      if isNaN f a || isNaN f b then flagIf (isSNaN f a || isSNaN f b || (predicate c).signalling) flagIE
      else deFlag f a b }

/-- `CMPPS` (R77): packed binary32 compare, legacy form. -/
def execCmpps (dst : VReg) (src : Src) (imm : BitVec 8) (s : State) : Host.Outcome State Fault Refusal :=
  call (.legacy .cmp false false dst src imm) .f32 (binaryLanes .f32 (cmpW (legacyCode imm))) s

/-- `CMPPD` (R78): packed binary64 compare, legacy form. -/
def execCmppd (dst : VReg) (src : Src) (imm : BitVec 8) (s : State) : Host.Outcome State Fault Refusal :=
  call (.legacy .cmp false true dst src imm) .f64 (binaryLanes .f64 (cmpW (legacyCode imm))) s

/-- `CMPSS` (R79): scalar binary32 compare, legacy form. -/
def execCmpss (dst : VReg) (src : Src) (imm : BitVec 8) (s : State) : Host.Outcome State Fault Refusal :=
  call (.legacy .cmp true false dst src imm) .f32 (binaryLanes .f32 (cmpW (legacyCode imm))) s

/-- `CMPSD` (R80): scalar binary64 compare, legacy form. -/
def execCmpsd (dst : VReg) (src : Src) (imm : BitVec 8) (s : State) : Host.Outcome State Fault Refusal :=
  call (.legacy .cmp true true dst src imm) .f64 (binaryLanes .f64 (cmpW (legacyCode imm))) s

/-- `VCMPPS` (R81): packed binary32 compare, non-legacy form. -/
def execVcmpps (vl : VLen) (dst src1 : VReg) (src2 : Src) (imm : BitVec 8) (s : State) : Host.Outcome State Fault Refusal :=
  call (.nonLegacy .cmp false false vl .plain dst src1 src2 imm) .f32 (binaryLanes .f32 (cmpW (vexCode imm))) s

/-- `VCMPPD` (R82): packed binary64 compare, non-legacy form. -/
def execVcmppd (vl : VLen) (dst src1 : VReg) (src2 : Src) (imm : BitVec 8) (s : State) : Host.Outcome State Fault Refusal :=
  call (.nonLegacy .cmp false true vl .plain dst src1 src2 imm) .f64 (binaryLanes .f64 (cmpW (vexCode imm))) s

/-- `VCMPSS` (R83): scalar binary32 compare, non-legacy form. -/
def execVcmpss (dst src1 : VReg) (src2 : Src) (imm : BitVec 8) (s : State) : Host.Outcome State Fault Refusal :=
  call (.nonLegacy .cmp true false .v128 .plain dst src1 src2 imm) .f32 (binaryLanes .f32 (cmpW (vexCode imm))) s

/-- `VCMPSD` (R84): scalar binary64 compare, non-legacy form. -/
def execVcmpsd (dst src1 : VReg) (src2 : Src) (imm : BitVec 8) (s : State) : Host.Outcome State Fault Refusal :=
  call (.nonLegacy .cmp true true .v128 .plain dst src1 src2 imm) .f64 (binaryLanes .f64 (cmpW (vexCode imm))) s

end Sys2Proof.Machine
end

