-- ==== Sys2Proof/Machine/Elementwise.lean ====
section
/-!
DEFINITION. Add, subtract, multiply, divide (spec/43_elementwise.md): the lane primitives R97 to R100, and a meaning for each of
the 32 instructions R101 to R132.
-/

namespace Sys2Proof.Machine

/-- `Add_w` after DAZ and the NaN check (R97), which `Sub_w` also runs, on `b` with its sign inverted (R98). -/
def addNumbers (p : Params) (f : Fmt) (st : Status) (a b : BitVec f.w) : LaneRes f :=
  let de := deFlag f a b
  if isInf f a && isInf f b then
    if sign f a == sign f b then { val := a, flags := de } else invalid f de
  else if isInf f a then { val := a, flags := de }
  else if isInf f b then { val := b, flags := de }
  else
    let x := scaled f a + scaled f b
    if x = 0 then { val := zeroSum f st a b, flags := de }
    else roundPackWith p f st de (decide (x < 0)) (.ratio x.natAbs 1 f.grid)

/-- `Add_w` (R97). -/
def addW (p : Params) (f : Fmt) (st : Status) (a b : BitVec f.w) : LaneRes f :=
  let a := dazW f st a
  let b := dazW f st b
  if isNaN f a || isNaN f b then nan2 f a b else addNumbers p f st a b

/-- `Sub_w` (R98): the NaN check on the operands as they are, then `Add_w`'s remaining steps on `(a, -b)`. -/
def subW (p : Params) (f : Fmt) (st : Status) (a b : BitVec f.w) : LaneRes f :=
  let a := dazW f st a
  let b := dazW f st b
  if isNaN f a || isNaN f b then nan2 f a b else addNumbers p f st a (negate f b)

/-- `Mul_w` (R99). -/
def mulW (p : Params) (f : Fmt) (st : Status) (a b : BitVec f.w) : LaneRes f :=
  let a := dazW f st a
  let b := dazW f st b
  if isNaN f a || isNaN f b then nan2 f a b
  else
    let de := deFlag f a b
    let s := sign f a != sign f b
    if (isInf f a && isZero f b) || (isZero f a && isInf f b) then invalid f de
    else if isInf f a || isInf f b then { val := infOf f s, flags := de }
    else if isZero f a || isZero f b then { val := zeroOf f s, flags := de }
    else roundPackWith p f st de s (.ratio (sig f a * sig f b) 1 (unitExp f a + unitExp f b))

/-- `Div_w` (R100). An infinity over a zero sets no ZE: R209 and vector D7 give ZE to a finite dividend alone (assumption log 9,
DEDUCED). -/
def divW (p : Params) (f : Fmt) (st : Status) (a b : BitVec f.w) : LaneRes f :=
  let a := dazW f st a
  let b := dazW f st b
  if isNaN f a || isNaN f b then nan2 f a b
  else
    let s := sign f a != sign f b
    if (isInf f a && isInf f b) || (isZero f a && isZero f b) then invalid f 0
    else if isZero f b then
      { val := infOf f s
        flags := if isInf f a then 0 else flagZE ||| flagIf (isDenormal f a && p.deWithZe) flagDE }
    else
      let de := deFlag f a b
      if isInf f a then { val := infOf f s, flags := de }
      else if isInf f b then { val := zeroOf f s, flags := de }
      else if isZero f a then { val := zeroOf f s, flags := de }
      else roundPackWith p f st de s (.ratio (sig f a) (sig f b) (unitExp f a - unitExp f b))

/-- `ADDPS` (R101): packed binary32 add, legacy form. -/
def execAddps (dst : VReg) (src : Src) (s : State) : Host.Outcome State Fault Refusal :=
  call (.legacy .add false false dst src 0) .f32 (binaryLanes .f32 addW) s

/-- `ADDPD` (R102): packed binary64 add, legacy form. -/
def execAddpd (dst : VReg) (src : Src) (s : State) : Host.Outcome State Fault Refusal :=
  call (.legacy .add false true dst src 0) .f64 (binaryLanes .f64 addW) s

/-- `ADDSS` (R103): scalar binary32 add, legacy form. -/
def execAddss (dst : VReg) (src : Src) (s : State) : Host.Outcome State Fault Refusal :=
  call (.legacy .add true false dst src 0) .f32 (binaryLanes .f32 addW) s

/-- `ADDSD` (R104): scalar binary64 add, legacy form. -/
def execAddsd (dst : VReg) (src : Src) (s : State) : Host.Outcome State Fault Refusal :=
  call (.legacy .add true true dst src 0) .f64 (binaryLanes .f64 addW) s

/-- `VADDPS` (R105): packed binary32 add, non-legacy form. -/
def execVaddps (vl : VLen) (ev : Evex) (dst src1 : VReg) (src2 : Src) (s : State) : Host.Outcome State Fault Refusal :=
  call (.nonLegacy .add false false vl ev dst src1 src2 0) .f32 (binaryLanes .f32 addW) s

/-- `VADDPD` (R106): packed binary64 add, non-legacy form. -/
def execVaddpd (vl : VLen) (ev : Evex) (dst src1 : VReg) (src2 : Src) (s : State) : Host.Outcome State Fault Refusal :=
  call (.nonLegacy .add false true vl ev dst src1 src2 0) .f64 (binaryLanes .f64 addW) s

/-- `VADDSS` (R107): scalar binary32 add, non-legacy form. -/
def execVaddss (ev : Evex) (dst src1 : VReg) (src2 : Src) (s : State) : Host.Outcome State Fault Refusal :=
  call (.nonLegacy .add true false .v128 ev dst src1 src2 0) .f32 (binaryLanes .f32 addW) s

/-- `VADDSD` (R108): scalar binary64 add, non-legacy form. -/
def execVaddsd (ev : Evex) (dst src1 : VReg) (src2 : Src) (s : State) : Host.Outcome State Fault Refusal :=
  call (.nonLegacy .add true true .v128 ev dst src1 src2 0) .f64 (binaryLanes .f64 addW) s

/-- `SUBPS` (R109): packed binary32 subtract, legacy form. -/
def execSubps (dst : VReg) (src : Src) (s : State) : Host.Outcome State Fault Refusal :=
  call (.legacy .sub false false dst src 0) .f32 (binaryLanes .f32 subW) s

/-- `SUBPD` (R110): packed binary64 subtract, legacy form. -/
def execSubpd (dst : VReg) (src : Src) (s : State) : Host.Outcome State Fault Refusal :=
  call (.legacy .sub false true dst src 0) .f64 (binaryLanes .f64 subW) s

/-- `SUBSS` (R111): scalar binary32 subtract, legacy form. -/
def execSubss (dst : VReg) (src : Src) (s : State) : Host.Outcome State Fault Refusal :=
  call (.legacy .sub true false dst src 0) .f32 (binaryLanes .f32 subW) s

/-- `SUBSD` (R112): scalar binary64 subtract, legacy form. -/
def execSubsd (dst : VReg) (src : Src) (s : State) : Host.Outcome State Fault Refusal :=
  call (.legacy .sub true true dst src 0) .f64 (binaryLanes .f64 subW) s

/-- `VSUBPS` (R113): packed binary32 subtract, non-legacy form. -/
def execVsubps (vl : VLen) (ev : Evex) (dst src1 : VReg) (src2 : Src) (s : State) : Host.Outcome State Fault Refusal :=
  call (.nonLegacy .sub false false vl ev dst src1 src2 0) .f32 (binaryLanes .f32 subW) s

/-- `VSUBPD` (R114): packed binary64 subtract, non-legacy form. -/
def execVsubpd (vl : VLen) (ev : Evex) (dst src1 : VReg) (src2 : Src) (s : State) : Host.Outcome State Fault Refusal :=
  call (.nonLegacy .sub false true vl ev dst src1 src2 0) .f64 (binaryLanes .f64 subW) s

/-- `VSUBSS` (R115): scalar binary32 subtract, non-legacy form. -/
def execVsubss (ev : Evex) (dst src1 : VReg) (src2 : Src) (s : State) : Host.Outcome State Fault Refusal :=
  call (.nonLegacy .sub true false .v128 ev dst src1 src2 0) .f32 (binaryLanes .f32 subW) s

/-- `VSUBSD` (R116): scalar binary64 subtract, non-legacy form. -/
def execVsubsd (ev : Evex) (dst src1 : VReg) (src2 : Src) (s : State) : Host.Outcome State Fault Refusal :=
  call (.nonLegacy .sub true true .v128 ev dst src1 src2 0) .f64 (binaryLanes .f64 subW) s

/-- `MULPS` (R117): packed binary32 multiply, legacy form. -/
def execMulps (dst : VReg) (src : Src) (s : State) : Host.Outcome State Fault Refusal :=
  call (.legacy .mul false false dst src 0) .f32 (binaryLanes .f32 mulW) s

/-- `MULPD` (R118): packed binary64 multiply, legacy form. -/
def execMulpd (dst : VReg) (src : Src) (s : State) : Host.Outcome State Fault Refusal :=
  call (.legacy .mul false true dst src 0) .f64 (binaryLanes .f64 mulW) s

/-- `MULSS` (R119): scalar binary32 multiply, legacy form. -/
def execMulss (dst : VReg) (src : Src) (s : State) : Host.Outcome State Fault Refusal :=
  call (.legacy .mul true false dst src 0) .f32 (binaryLanes .f32 mulW) s

/-- `MULSD` (R120): scalar binary64 multiply, legacy form. -/
def execMulsd (dst : VReg) (src : Src) (s : State) : Host.Outcome State Fault Refusal :=
  call (.legacy .mul true true dst src 0) .f64 (binaryLanes .f64 mulW) s

/-- `VMULPS` (R121): packed binary32 multiply, non-legacy form. -/
def execVmulps (vl : VLen) (ev : Evex) (dst src1 : VReg) (src2 : Src) (s : State) : Host.Outcome State Fault Refusal :=
  call (.nonLegacy .mul false false vl ev dst src1 src2 0) .f32 (binaryLanes .f32 mulW) s

/-- `VMULPD` (R122): packed binary64 multiply, non-legacy form. -/
def execVmulpd (vl : VLen) (ev : Evex) (dst src1 : VReg) (src2 : Src) (s : State) : Host.Outcome State Fault Refusal :=
  call (.nonLegacy .mul false true vl ev dst src1 src2 0) .f64 (binaryLanes .f64 mulW) s

/-- `VMULSS` (R123): scalar binary32 multiply, non-legacy form. -/
def execVmulss (ev : Evex) (dst src1 : VReg) (src2 : Src) (s : State) : Host.Outcome State Fault Refusal :=
  call (.nonLegacy .mul true false .v128 ev dst src1 src2 0) .f32 (binaryLanes .f32 mulW) s

/-- `VMULSD` (R124): scalar binary64 multiply, non-legacy form. -/
def execVmulsd (ev : Evex) (dst src1 : VReg) (src2 : Src) (s : State) : Host.Outcome State Fault Refusal :=
  call (.nonLegacy .mul true true .v128 ev dst src1 src2 0) .f64 (binaryLanes .f64 mulW) s

/-- `DIVPS` (R125): packed binary32 divide, legacy form. -/
def execDivps (dst : VReg) (src : Src) (s : State) : Host.Outcome State Fault Refusal :=
  call (.legacy .div false false dst src 0) .f32 (binaryLanes .f32 divW) s

/-- `DIVPD` (R126): packed binary64 divide, legacy form. -/
def execDivpd (dst : VReg) (src : Src) (s : State) : Host.Outcome State Fault Refusal :=
  call (.legacy .div false true dst src 0) .f64 (binaryLanes .f64 divW) s

/-- `DIVSS` (R127): scalar binary32 divide, legacy form. -/
def execDivss (dst : VReg) (src : Src) (s : State) : Host.Outcome State Fault Refusal :=
  call (.legacy .div true false dst src 0) .f32 (binaryLanes .f32 divW) s

/-- `DIVSD` (R128): scalar binary64 divide, legacy form. -/
def execDivsd (dst : VReg) (src : Src) (s : State) : Host.Outcome State Fault Refusal :=
  call (.legacy .div true true dst src 0) .f64 (binaryLanes .f64 divW) s

/-- `VDIVPS` (R129): packed binary32 divide, non-legacy form. -/
def execVdivps (vl : VLen) (ev : Evex) (dst src1 : VReg) (src2 : Src) (s : State) : Host.Outcome State Fault Refusal :=
  call (.nonLegacy .div false false vl ev dst src1 src2 0) .f32 (binaryLanes .f32 divW) s

/-- `VDIVPD` (R130): packed binary64 divide, non-legacy form. -/
def execVdivpd (vl : VLen) (ev : Evex) (dst src1 : VReg) (src2 : Src) (s : State) : Host.Outcome State Fault Refusal :=
  call (.nonLegacy .div false true vl ev dst src1 src2 0) .f64 (binaryLanes .f64 divW) s

/-- `VDIVSS` (R131): scalar binary32 divide, non-legacy form. -/
def execVdivss (ev : Evex) (dst src1 : VReg) (src2 : Src) (s : State) : Host.Outcome State Fault Refusal :=
  call (.nonLegacy .div true false .v128 ev dst src1 src2 0) .f32 (binaryLanes .f32 divW) s

/-- `VDIVSD` (R132): scalar binary64 divide, non-legacy form. -/
def execVdivsd (ev : Evex) (dst src1 : VReg) (src2 : Src) (s : State) : Host.Outcome State Fault Refusal :=
  call (.nonLegacy .div true true .v128 ev dst src1 src2 0) .f64 (binaryLanes .f64 divW) s

end Sys2Proof.Machine
end

