-- ==== Sys2Proof/Machine/DotProduct.lean ====
section
/-!
DEFINITION. The masked reduction (spec/46_dot_product.md): the primitive R188, R190, and the meanings of DPPS and VDPPS (R191, R192).
-/

namespace Sys2Proof.Machine

/-- Step 1 of `Dp_32` in lane `l` of sub-block `j` (R188): the product, or `+0.0` with nothing computed where the high nibble of the
mask does not select the lane. -/
def dpProduct (imm : BitVec 8) (p : Params) (st : Status) (a b : VecWord) (j l : Nat) : LaneRes .f32 :=
  if imm.getLsbD (4 + l) then mulW p .f32 st (lane .f32 a (4 * j + l)) (lane .f32 b (4 * j + l))
  else { val := 0#32, flags := 0 }

/-- Lane order [1, 0, 3, 2] (R188 step 2). -/
def swapPairs : Nat → Nat
  | 0 => 1
  | 1 => 0
  | 2 => 3
  | _ => 2

/-- Lane order [2, 3, 0, 1] (R188 step 4). -/
def swapHalves : Nat → Nat
  | 0 => 2
  | 1 => 3
  | 2 => 0
  | _ => 1

/-- Step 3 (R188): the sum of the pair-swapped copy and the product, in all four lanes. -/
def dpPairSum (imm : BitVec 8) (p : Params) (st : Status) (a b : VecWord) (j l : Nat) : LaneRes .f32 :=
  addW p .f32 st (dpProduct imm p st a b j (swapPairs l)).val (dpProduct imm p st a b j l).val

/-- Step 5 (R188): the sum of the pair sum and its half-swapped copy, in the lanes the low nibble selects; the others are zero
and not computed. -/
def dpTotal (imm : BitVec 8) (p : Params) (st : Status) (a b : VecWord) (j l : Nat) : LaneRes .f32 :=
  if imm.getLsbD l then
    addW p .f32 st (dpPairSum imm p st a b j l).val (dpPairSum imm p st a b j (swapHalves l)).val
  else { val := 0#32, flags := 0 }

/-- `Dp_32` on each sub-block (R188, R190): lane `i` is lane `i % 4` of sub-block `i / 4`, and the flags of a lane are those that its
three steps set. -/
def dpLanes (imm : BitVec 8) : LaneOp .f32 :=
  fun p st a b i =>
    let j := i / 4
    let l := i % 4
    { val := (dpTotal imm p st a b j l).val
      flags :=
        (dpProduct imm p st a b j l).flags ||| (dpPairSum imm p st a b j l).flags ||| (dpTotal imm p st a b j l).flags }

/-- `DPPS` (R191): packed binary32 dot product, legacy form. -/
def execDpps (dst : VReg) (src : Src) (imm : BitVec 8) (s : State) : Host.Outcome State Fault Refusal :=
  call (.legacy .dp false false dst src imm) .f32 (dpLanes imm) s

/-- `VDPPS` (R192): packed binary32 dot product, non-legacy form. -/
def execVdpps (vl : VLen) (dst src1 : VReg) (src2 : Src) (imm : BitVec 8) (s : State) : Host.Outcome State Fault Refusal :=
  call (.nonLegacy .dp false false vl .plain dst src1 src2 imm) .f32 (dpLanes imm) s

end Sys2Proof.Machine
end

