-- ==== Sys2Proof/Machine/MinMaxSqrtScalef.lean ====
section
/-!
DEFINITION. Minimum, maximum, square root and scale-by-exponent (spec/44_minmax_sqrt_scalef.md): the lane primitives R133 to R135,
and a meaning for each of the 28 instructions R136 to R163.
-/

namespace Sys2Proof.Machine

/-- What `Min_w` and `Max_w` share (R133): a NaN on either side gives operand B as it stands after DAZ, with IE; else operand A
if `pick` says so of the two real values, and operand B if not. -/
def selectW (f : Fmt) (st : Status) (pick : Int → Int → Bool) (a b : BitVec f.w) : LaneRes f :=
  let a := dazW f st a
  let b := dazW f st b
  if isNaN f a || isNaN f b then { val := b, flags := flagIE }
  else { val := if pick (scaled f a) (scaled f b) then a else b, flags := deFlag f a b }

/-- `Min_w` (R133). -/
def minW (_p : Params) (f : Fmt) (st : Status) (a b : BitVec f.w) : LaneRes f :=
  selectW f st (fun x y => decide (x < y)) a b

/-- `Max_w` (R133). -/
def maxW (_p : Params) (f : Fmt) (st : Status) (a b : BitVec f.w) : LaneRes f :=
  selectW f st (fun x y => decide (x > y)) a b

/-- The square root of a positive finite pattern, exactly. -/
def sqrtMag (f : Fmt) (b : BitVec f.w) : Mag :=
  let u := unitExp f b
  if u % 2 = 0 then .root (sig f b) (u / 2) else .root (2 * sig f b) ((u - 1) / 2)

/-- `Sqrt_w` (R134). -/
def sqrtW (p : Params) (f : Fmt) (st : Status) (b : BitVec f.w) : LaneRes f :=
  let b := dazW f st b
  if isNaN f b then nan1 f b
  else if isZero f b then { val := b, flags := 0 }
  else if sign f b then invalid f (flagIf (isDenormal f b && p.deWithSqrtInvalid) flagDE)
  else
    let de := flagIf (isDenormal f b) flagDE
    if isInf f b then { val := infOf f false, flags := de }
    else roundPackWith p f st de false (sqrtMag f b)

/-- `floor(real(b))` of a finite pattern. -/
def floorReal (f : Fmt) (b : BitVec f.w) : Int :=
  let m : Int := if sign f b then -(sig f b : Int) else sig f b
  Int.fdiv (m * pow2 (unitExp f b)) (pow2 (-unitExp f b))

/-- `NLO_w` and `NHI_w` (R135). -/
def scalefBounds : Fmt → Int × Int
  | .f32 => (-279, 277)
  | .f64 => (-2100, 2098)

/-- `Scalef_w` (R135); `drawn` is the value of the lane where the parameter P_SCALEF_QNAN_INF lets it be any value. -/
def scalefW (drawn : BitVec 64) (p : Params) (f : Fmt) (st : Status) (a b : BitVec f.w) : LaneRes f :=
  let a := dazW f st a
  let b := dazW f st b
  if isNaN f a || isNaN f b then
    if isQNaN f a && isInf f b && p.scalefQnanInf == .draw then { val := drawn.setWidth f.w, flags := 0 }
    else nan2 f a b
  else
    let de := flagIf (isDenormal f a) flagDE ||| flagIf (isDenormal f b && p.scalefDeB) flagDE
    if isInf f b && !sign f b then
      if isZero f a then invalid f de else { val := infOf f (sign f a), flags := de }
    else if isInf f b then
      if isInf f a then invalid f de else { val := zeroOf f (sign f a), flags := de }
    else if isInf f a || isZero f a then { val := a, flags := de }
    else
      let n := max (scalefBounds f).1 (min (floorReal f b) (scalefBounds f).2)
      roundPackWith p f st de (sign f a) (.ratio (sig f a) 1 (unitExp f a + n))

/-- `Scalef_w` lane by lane, the free values from number `n` of the sequence on, one a lane. -/
def scalefLanes (f : Fmt) (n : Nat) : LaneOp f :=
  fun p st a b i => scalefW (Config.freeLane (n + i)) p f st (lane f a i) (lane f b i)

/-- `MINPS` (R136): packed binary32 minimum, legacy form. -/
def execMinps (dst : VReg) (src : Src) (s : State) : Host.Outcome State Fault Refusal :=
  call (.legacy .min false false dst src 0) .f32 (binaryLanes .f32 minW) s

/-- `MINPD` (R137): packed binary64 minimum, legacy form. -/
def execMinpd (dst : VReg) (src : Src) (s : State) : Host.Outcome State Fault Refusal :=
  call (.legacy .min false true dst src 0) .f64 (binaryLanes .f64 minW) s

/-- `MINSS` (R138): scalar binary32 minimum, legacy form. -/
def execMinss (dst : VReg) (src : Src) (s : State) : Host.Outcome State Fault Refusal :=
  call (.legacy .min true false dst src 0) .f32 (binaryLanes .f32 minW) s

/-- `MINSD` (R139): scalar binary64 minimum, legacy form. -/
def execMinsd (dst : VReg) (src : Src) (s : State) : Host.Outcome State Fault Refusal :=
  call (.legacy .min true true dst src 0) .f64 (binaryLanes .f64 minW) s

/-- `VMINPS` (R140): packed binary32 minimum, non-legacy form. -/
def execVminps (vl : VLen) (ev : Evex) (dst src1 : VReg) (src2 : Src) (s : State) : Host.Outcome State Fault Refusal :=
  call (.nonLegacy .min false false vl ev dst src1 src2 0) .f32 (binaryLanes .f32 minW) s

/-- `VMINPD` (R141): packed binary64 minimum, non-legacy form. -/
def execVminpd (vl : VLen) (ev : Evex) (dst src1 : VReg) (src2 : Src) (s : State) : Host.Outcome State Fault Refusal :=
  call (.nonLegacy .min false true vl ev dst src1 src2 0) .f64 (binaryLanes .f64 minW) s

/-- `VMINSS` (R142): scalar binary32 minimum, non-legacy form. -/
def execVminss (ev : Evex) (dst src1 : VReg) (src2 : Src) (s : State) : Host.Outcome State Fault Refusal :=
  call (.nonLegacy .min true false .v128 ev dst src1 src2 0) .f32 (binaryLanes .f32 minW) s

/-- `VMINSD` (R143): scalar binary64 minimum, non-legacy form. -/
def execVminsd (ev : Evex) (dst src1 : VReg) (src2 : Src) (s : State) : Host.Outcome State Fault Refusal :=
  call (.nonLegacy .min true true .v128 ev dst src1 src2 0) .f64 (binaryLanes .f64 minW) s

/-- `MAXPS` (R144): packed binary32 maximum, legacy form. -/
def execMaxps (dst : VReg) (src : Src) (s : State) : Host.Outcome State Fault Refusal :=
  call (.legacy .max false false dst src 0) .f32 (binaryLanes .f32 maxW) s

/-- `MAXPD` (R145): packed binary64 maximum, legacy form. -/
def execMaxpd (dst : VReg) (src : Src) (s : State) : Host.Outcome State Fault Refusal :=
  call (.legacy .max false true dst src 0) .f64 (binaryLanes .f64 maxW) s

/-- `MAXSS` (R146): scalar binary32 maximum, legacy form. -/
def execMaxss (dst : VReg) (src : Src) (s : State) : Host.Outcome State Fault Refusal :=
  call (.legacy .max true false dst src 0) .f32 (binaryLanes .f32 maxW) s

/-- `MAXSD` (R147): scalar binary64 maximum, legacy form. -/
def execMaxsd (dst : VReg) (src : Src) (s : State) : Host.Outcome State Fault Refusal :=
  call (.legacy .max true true dst src 0) .f64 (binaryLanes .f64 maxW) s

/-- `VMAXPS` (R148): packed binary32 maximum, non-legacy form. -/
def execVmaxps (vl : VLen) (ev : Evex) (dst src1 : VReg) (src2 : Src) (s : State) : Host.Outcome State Fault Refusal :=
  call (.nonLegacy .max false false vl ev dst src1 src2 0) .f32 (binaryLanes .f32 maxW) s

/-- `VMAXPD` (R149): packed binary64 maximum, non-legacy form. -/
def execVmaxpd (vl : VLen) (ev : Evex) (dst src1 : VReg) (src2 : Src) (s : State) : Host.Outcome State Fault Refusal :=
  call (.nonLegacy .max false true vl ev dst src1 src2 0) .f64 (binaryLanes .f64 maxW) s

/-- `VMAXSS` (R150): scalar binary32 maximum, non-legacy form. -/
def execVmaxss (ev : Evex) (dst src1 : VReg) (src2 : Src) (s : State) : Host.Outcome State Fault Refusal :=
  call (.nonLegacy .max true false .v128 ev dst src1 src2 0) .f32 (binaryLanes .f32 maxW) s

/-- `VMAXSD` (R151): scalar binary64 maximum, non-legacy form. -/
def execVmaxsd (ev : Evex) (dst src1 : VReg) (src2 : Src) (s : State) : Host.Outcome State Fault Refusal :=
  call (.nonLegacy .max true true .v128 ev dst src1 src2 0) .f64 (binaryLanes .f64 maxW) s

/-- `SQRTPS` (R152): packed binary32 square root, legacy form. -/
def execSqrtps (dst : VReg) (src : Src) (s : State) : Host.Outcome State Fault Refusal :=
  call (.legacy .sqrt false false dst src 0) .f32 (unaryLanes .f32 sqrtW) s

/-- `SQRTPD` (R153): packed binary64 square root, legacy form. -/
def execSqrtpd (dst : VReg) (src : Src) (s : State) : Host.Outcome State Fault Refusal :=
  call (.legacy .sqrt false true dst src 0) .f64 (unaryLanes .f64 sqrtW) s

/-- `SQRTSS` (R154): scalar binary32 square root, legacy form. -/
def execSqrtss (dst : VReg) (src : Src) (s : State) : Host.Outcome State Fault Refusal :=
  call (.legacy .sqrt true false dst src 0) .f32 (unaryLanes .f32 sqrtW) s

/-- `SQRTSD` (R155): scalar binary64 square root, legacy form. -/
def execSqrtsd (dst : VReg) (src : Src) (s : State) : Host.Outcome State Fault Refusal :=
  call (.legacy .sqrt true true dst src 0) .f64 (unaryLanes .f64 sqrtW) s

/-- `VSQRTPS` (R156): packed binary32 square root, non-legacy form. -/
def execVsqrtps (vl : VLen) (ev : Evex) (dst : VReg) (src : Src) (s : State) : Host.Outcome State Fault Refusal :=
  call (.nonLegacy .sqrt false false vl ev dst 0 src 0) .f32 (unaryLanes .f32 sqrtW) s

/-- `VSQRTPD` (R157): packed binary64 square root, non-legacy form. -/
def execVsqrtpd (vl : VLen) (ev : Evex) (dst : VReg) (src : Src) (s : State) : Host.Outcome State Fault Refusal :=
  call (.nonLegacy .sqrt false true vl ev dst 0 src 0) .f64 (unaryLanes .f64 sqrtW) s

/-- `VSQRTSS` (R158): scalar binary32 square root, non-legacy form. -/
def execVsqrtss (ev : Evex) (dst src1 : VReg) (src2 : Src) (s : State) : Host.Outcome State Fault Refusal :=
  call (.nonLegacy .sqrt true false .v128 ev dst src1 src2 0) .f32 (unaryLanes .f32 sqrtW) s

/-- `VSQRTSD` (R159): scalar binary64 square root, non-legacy form. -/
def execVsqrtsd (ev : Evex) (dst src1 : VReg) (src2 : Src) (s : State) : Host.Outcome State Fault Refusal :=
  call (.nonLegacy .sqrt true true .v128 ev dst src1 src2 0) .f64 (unaryLanes .f64 sqrtW) s

/-- `VSCALEFPS` (R160): packed binary32 scale by exponent, non-legacy form. -/
def execVscalefps (vl : VLen) (ev : Evex) (dst src1 : VReg) (src2 : Src) (s : State) : Host.Outcome State Fault Refusal :=
  callDrawing (.nonLegacy .scalef false false vl ev dst src1 src2 0) .f32 (scalefLanes .f32) s

/-- `VSCALEFPD` (R161): packed binary64 scale by exponent, non-legacy form. -/
def execVscalefpd (vl : VLen) (ev : Evex) (dst src1 : VReg) (src2 : Src) (s : State) : Host.Outcome State Fault Refusal :=
  callDrawing (.nonLegacy .scalef false true vl ev dst src1 src2 0) .f64 (scalefLanes .f64) s

/-- `VSCALEFSS` (R162): scalar binary32 scale by exponent, non-legacy form. -/
def execVscalefss (ev : Evex) (dst src1 : VReg) (src2 : Src) (s : State) : Host.Outcome State Fault Refusal :=
  callDrawing (.nonLegacy .scalef true false .v128 ev dst src1 src2 0) .f32 (scalefLanes .f32) s

/-- `VSCALEFSD` (R163): scalar binary64 scale by exponent, non-legacy form. -/
def execVscalefsd (ev : Evex) (dst src1 : VReg) (src2 : Src) (s : State) : Host.Outcome State Fault Refusal :=
  callDrawing (.nonLegacy .scalef true true .v128 ev dst src1 src2 0) .f64 (scalefLanes .f64) s

end Sys2Proof.Machine
end

