-- ==== Sys2Proof/Machine/RoundHorizontal.lean ====
section
/-!
DEFINITION. Round to integer, horizontal add and subtract, alternating add-subtract (spec/45_round_horizontal.md): the primitives
R164 to R167, and a meaning for each of the 20 instructions R168 to R187.
-/

namespace Sys2Proof.Machine

/-- `Round_w` (R164); the status context already holds the mode and the PE suppression that IMM8 asks for (R53). -/
def roundW (p : Params) (f : Fmt) (st : Status) (b : BitVec f.w) : LaneRes f :=
  let b := if isDenormal f b && p.roundDaz then dazW f st b else b
  if isNaN f b then nan1 f b
  else if isInf f b || isZero f b then { val := b, flags := 0 }
  else
    let r := (Mag.ratio (sig f b) 1 (unitExp f b)).rint 0 st.rc (sign f b)
    { val := encodeReal f (sign f b) r.1 0, flags := flagIf (!r.2) flagPE }

/-- Alternating add-subtract (R167): even lanes subtract, odd lanes add. -/
def addsubLanes (f : Fmt) : LaneOp f :=
  fun p st a b i =>
    if i % 2 = 0 then subW p f st (lane f a i) (lane f b i) else addW p f st (lane f a i) (lane f b i)

/-- `ROUNDPS` (R168): packed binary32 round to integral value, legacy form. -/
def execRoundps (dst : VReg) (src : Src) (imm : BitVec 8) (s : State) : Host.Outcome State Fault Refusal :=
  call (.legacy .round false false dst src imm) .f32 (unaryLanes .f32 roundW) s

/-- `ROUNDPD` (R169): packed binary64 round to integral value, legacy form. -/
def execRoundpd (dst : VReg) (src : Src) (imm : BitVec 8) (s : State) : Host.Outcome State Fault Refusal :=
  call (.legacy .round false true dst src imm) .f64 (unaryLanes .f64 roundW) s

/-- `ROUNDSS` (R170): scalar binary32 round to integral value, legacy form. -/
def execRoundss (dst : VReg) (src : Src) (imm : BitVec 8) (s : State) : Host.Outcome State Fault Refusal :=
  call (.legacy .round true false dst src imm) .f32 (unaryLanes .f32 roundW) s

/-- `ROUNDSD` (R171): scalar binary64 round to integral value, legacy form. -/
def execRoundsd (dst : VReg) (src : Src) (imm : BitVec 8) (s : State) : Host.Outcome State Fault Refusal :=
  call (.legacy .round true true dst src imm) .f64 (unaryLanes .f64 roundW) s

/-- `VROUNDPS` (R172): packed binary32 round to integral value, non-legacy form. -/
def execVroundps (vl : VLen) (dst : VReg) (src : Src) (imm : BitVec 8) (s : State) : Host.Outcome State Fault Refusal :=
  call (.nonLegacy .round false false vl .plain dst 0 src imm) .f32 (unaryLanes .f32 roundW) s

/-- `VROUNDPD` (R173): packed binary64 round to integral value, non-legacy form. -/
def execVroundpd (vl : VLen) (dst : VReg) (src : Src) (imm : BitVec 8) (s : State) : Host.Outcome State Fault Refusal :=
  call (.nonLegacy .round false true vl .plain dst 0 src imm) .f64 (unaryLanes .f64 roundW) s

/-- `VROUNDSS` (R174): scalar binary32 round to integral value, non-legacy form. -/
def execVroundss (dst src1 : VReg) (src2 : Src) (imm : BitVec 8) (s : State) : Host.Outcome State Fault Refusal :=
  call (.nonLegacy .round true false .v128 .plain dst src1 src2 imm) .f32 (unaryLanes .f32 roundW) s

/-- `VROUNDSD` (R175): scalar binary64 round to integral value, non-legacy form. -/
def execVroundsd (dst src1 : VReg) (src2 : Src) (imm : BitVec 8) (s : State) : Host.Outcome State Fault Refusal :=
  call (.nonLegacy .round true true .v128 .plain dst src1 src2 imm) .f64 (unaryLanes .f64 roundW) s

/-- `HADDPS` (R176): packed binary32 horizontal add, legacy form. -/
def execHaddps (dst : VReg) (src : Src) (s : State) : Host.Outcome State Fault Refusal :=
  call (.legacy .hadd false false dst src 0) .f32 (pairLanes .f32 addW) s

/-- `HADDPD` (R177): packed binary64 horizontal add, legacy form. -/
def execHaddpd (dst : VReg) (src : Src) (s : State) : Host.Outcome State Fault Refusal :=
  call (.legacy .hadd false true dst src 0) .f64 (pairLanes .f64 addW) s

/-- `VHADDPS` (R178): packed binary32 horizontal add, non-legacy form. -/
def execVhaddps (vl : VLen) (dst src1 : VReg) (src2 : Src) (s : State) : Host.Outcome State Fault Refusal :=
  call (.nonLegacy .hadd false false vl .plain dst src1 src2 0) .f32 (pairLanes .f32 addW) s

/-- `VHADDPD` (R179): packed binary64 horizontal add, non-legacy form. -/
def execVhaddpd (vl : VLen) (dst src1 : VReg) (src2 : Src) (s : State) : Host.Outcome State Fault Refusal :=
  call (.nonLegacy .hadd false true vl .plain dst src1 src2 0) .f64 (pairLanes .f64 addW) s

/-- `HSUBPS` (R180): packed binary32 horizontal subtract, legacy form. -/
def execHsubps (dst : VReg) (src : Src) (s : State) : Host.Outcome State Fault Refusal :=
  call (.legacy .hsub false false dst src 0) .f32 (pairLanes .f32 subW) s

/-- `HSUBPD` (R181): packed binary64 horizontal subtract, legacy form. -/
def execHsubpd (dst : VReg) (src : Src) (s : State) : Host.Outcome State Fault Refusal :=
  call (.legacy .hsub false true dst src 0) .f64 (pairLanes .f64 subW) s

/-- `VHSUBPS` (R182): packed binary32 horizontal subtract, non-legacy form. -/
def execVhsubps (vl : VLen) (dst src1 : VReg) (src2 : Src) (s : State) : Host.Outcome State Fault Refusal :=
  call (.nonLegacy .hsub false false vl .plain dst src1 src2 0) .f32 (pairLanes .f32 subW) s

/-- `VHSUBPD` (R183): packed binary64 horizontal subtract, non-legacy form. -/
def execVhsubpd (vl : VLen) (dst src1 : VReg) (src2 : Src) (s : State) : Host.Outcome State Fault Refusal :=
  call (.nonLegacy .hsub false true vl .plain dst src1 src2 0) .f64 (pairLanes .f64 subW) s

/-- `ADDSUBPS` (R184): packed binary32 alternating subtract/add, legacy form. -/
def execAddsubps (dst : VReg) (src : Src) (s : State) : Host.Outcome State Fault Refusal :=
  call (.legacy .addsub false false dst src 0) .f32 (addsubLanes .f32) s

/-- `ADDSUBPD` (R185): packed binary64 alternating subtract/add, legacy form. -/
def execAddsubpd (dst : VReg) (src : Src) (s : State) : Host.Outcome State Fault Refusal :=
  call (.legacy .addsub false true dst src 0) .f64 (addsubLanes .f64) s

/-- `VADDSUBPS` (R186): packed binary32 alternating subtract/add, non-legacy form. -/
def execVaddsubps (vl : VLen) (dst src1 : VReg) (src2 : Src) (s : State) : Host.Outcome State Fault Refusal :=
  call (.nonLegacy .addsub false false vl .plain dst src1 src2 0) .f32 (addsubLanes .f32) s

/-- `VADDSUBPD` (R187): packed binary64 alternating subtract/add, non-legacy form. -/
def execVaddsubpd (vl : VLen) (dst src1 : VReg) (src2 : Src) (s : State) : Host.Outcome State Fault Refusal :=
  call (.nonLegacy .addsub false true vl .plain dst src1 src2 0) .f64 (addsubLanes .f64) s

end Sys2Proof.Machine
end

