-- ==== Sys2Proof/Machine/SignTest.lean ====
section
/-!
DEFINITION. The sign test (spec/48_test.md): R204, R205, and the meanings of VTESTPS and VTESTPD (R206, R207).
-/

namespace Sys2Proof.Machine

/-- `Test_w` (R204): ZF when no active lane has both signs set, CF when none has B's sign set and A's clear. -/
def testSigns (f : Fmt) (a b : VecWord) (n : Nat) : Bool × Bool :=
  ( (List.range n).all fun i => !(sign f (lane f a i) && sign f (lane f b i))
  , (List.range n).all fun i => !(!sign f (lane f a i) && sign f (lane f b i)) )

/-- The outputs of a sign test (R93, R204): no register, no status flag, the two condition flags. -/
def blockTest (d : Desc) (f : Fmt) (ci : CallIn) : CallOut :=
  let t := testSigns f ci.a ci.b (activeLanes f d.vl)
  { r := VecWord.zero, we := false, flags := 0, ccv := true, zf := t.1, cf := t.2 }

/-- One call of a sign test (R94, R211). -/
def callTest (d : Desc) (f : Fmt) (s : State) : Host.Outcome State Fault Refusal :=
  match refuseReason s.cfg d with
  | some r => .refused (.descriptor r)
  | none => .next (commit d (blockTest d f (s.sample d)) s)

/-- `VTESTPS` (R206): packed binary32 sign test, non-legacy form. -/
def execVtestps (vl : VLen) (src1 : VReg) (src2 : Src) (s : State) : Host.Outcome State Fault Refusal :=
  callTest (.nonLegacy .test false false vl .plain src1 src1 src2 0) .f32 s

/-- `VTESTPD` (R207): packed binary64 sign test, non-legacy form. -/
def execVtestpd (vl : VLen) (src1 : VReg) (src2 : Src) (s : State) : Host.Outcome State Fault Refusal :=
  callTest (.nonLegacy .test false true vl .plain src1 src1 src2 0) .f64 s

end Sys2Proof.Machine
end

