-- ==== Sys2Proof/Machine/Dispatch.lean ====
section
/-! DEFINITION. One arm per constructor of `Instr`: each instruction's meaning. -/

namespace Sys2Proof.Machine

def exec (i : Instr) (s : State) : Host.Outcome State Fault Refusal :=
  match i with
  | .addps dst src => Sys2Proof.Machine.execAddps dst src s
  | .addpd dst src => Sys2Proof.Machine.execAddpd dst src s
  | .addss dst src => Sys2Proof.Machine.execAddss dst src s
  | .addsd dst src => Sys2Proof.Machine.execAddsd dst src s
  | .vaddps vl ev dst src1 src2 => Sys2Proof.Machine.execVaddps vl ev dst src1 src2 s
  | .vaddpd vl ev dst src1 src2 => Sys2Proof.Machine.execVaddpd vl ev dst src1 src2 s
  | .vaddss ev dst src1 src2 => Sys2Proof.Machine.execVaddss ev dst src1 src2 s
  | .vaddsd ev dst src1 src2 => Sys2Proof.Machine.execVaddsd ev dst src1 src2 s
  | .subps dst src => Sys2Proof.Machine.execSubps dst src s
  | .subpd dst src => Sys2Proof.Machine.execSubpd dst src s
  | .subss dst src => Sys2Proof.Machine.execSubss dst src s
  | .subsd dst src => Sys2Proof.Machine.execSubsd dst src s
  | .vsubps vl ev dst src1 src2 => Sys2Proof.Machine.execVsubps vl ev dst src1 src2 s
  | .vsubpd vl ev dst src1 src2 => Sys2Proof.Machine.execVsubpd vl ev dst src1 src2 s
  | .vsubss ev dst src1 src2 => Sys2Proof.Machine.execVsubss ev dst src1 src2 s
  | .vsubsd ev dst src1 src2 => Sys2Proof.Machine.execVsubsd ev dst src1 src2 s
  | .mulps dst src => Sys2Proof.Machine.execMulps dst src s
  | .mulpd dst src => Sys2Proof.Machine.execMulpd dst src s
  | .mulss dst src => Sys2Proof.Machine.execMulss dst src s
  | .mulsd dst src => Sys2Proof.Machine.execMulsd dst src s
  | .vmulps vl ev dst src1 src2 => Sys2Proof.Machine.execVmulps vl ev dst src1 src2 s
  | .vmulpd vl ev dst src1 src2 => Sys2Proof.Machine.execVmulpd vl ev dst src1 src2 s
  | .vmulss ev dst src1 src2 => Sys2Proof.Machine.execVmulss ev dst src1 src2 s
  | .vmulsd ev dst src1 src2 => Sys2Proof.Machine.execVmulsd ev dst src1 src2 s
  | .divps dst src => Sys2Proof.Machine.execDivps dst src s
  | .divpd dst src => Sys2Proof.Machine.execDivpd dst src s
  | .divss dst src => Sys2Proof.Machine.execDivss dst src s
  | .divsd dst src => Sys2Proof.Machine.execDivsd dst src s
  | .vdivps vl ev dst src1 src2 => Sys2Proof.Machine.execVdivps vl ev dst src1 src2 s
  | .vdivpd vl ev dst src1 src2 => Sys2Proof.Machine.execVdivpd vl ev dst src1 src2 s
  | .vdivss ev dst src1 src2 => Sys2Proof.Machine.execVdivss ev dst src1 src2 s
  | .vdivsd ev dst src1 src2 => Sys2Proof.Machine.execVdivsd ev dst src1 src2 s
  | .minps dst src => Sys2Proof.Machine.execMinps dst src s
  | .minpd dst src => Sys2Proof.Machine.execMinpd dst src s
  | .minss dst src => Sys2Proof.Machine.execMinss dst src s
  | .minsd dst src => Sys2Proof.Machine.execMinsd dst src s
  | .vminps vl ev dst src1 src2 => Sys2Proof.Machine.execVminps vl ev dst src1 src2 s
  | .vminpd vl ev dst src1 src2 => Sys2Proof.Machine.execVminpd vl ev dst src1 src2 s
  | .vminss ev dst src1 src2 => Sys2Proof.Machine.execVminss ev dst src1 src2 s
  | .vminsd ev dst src1 src2 => Sys2Proof.Machine.execVminsd ev dst src1 src2 s
  | .maxps dst src => Sys2Proof.Machine.execMaxps dst src s
  | .maxpd dst src => Sys2Proof.Machine.execMaxpd dst src s
  | .maxss dst src => Sys2Proof.Machine.execMaxss dst src s
  | .maxsd dst src => Sys2Proof.Machine.execMaxsd dst src s
  | .vmaxps vl ev dst src1 src2 => Sys2Proof.Machine.execVmaxps vl ev dst src1 src2 s
  | .vmaxpd vl ev dst src1 src2 => Sys2Proof.Machine.execVmaxpd vl ev dst src1 src2 s
  | .vmaxss ev dst src1 src2 => Sys2Proof.Machine.execVmaxss ev dst src1 src2 s
  | .vmaxsd ev dst src1 src2 => Sys2Proof.Machine.execVmaxsd ev dst src1 src2 s
  | .sqrtps dst src => Sys2Proof.Machine.execSqrtps dst src s
  | .sqrtpd dst src => Sys2Proof.Machine.execSqrtpd dst src s
  | .sqrtss dst src => Sys2Proof.Machine.execSqrtss dst src s
  | .sqrtsd dst src => Sys2Proof.Machine.execSqrtsd dst src s
  | .vsqrtps vl ev dst src => Sys2Proof.Machine.execVsqrtps vl ev dst src s
  | .vsqrtpd vl ev dst src => Sys2Proof.Machine.execVsqrtpd vl ev dst src s
  | .vsqrtss ev dst src1 src2 => Sys2Proof.Machine.execVsqrtss ev dst src1 src2 s
  | .vsqrtsd ev dst src1 src2 => Sys2Proof.Machine.execVsqrtsd ev dst src1 src2 s
  | .vscalefps vl ev dst src1 src2 => Sys2Proof.Machine.execVscalefps vl ev dst src1 src2 s
  | .vscalefpd vl ev dst src1 src2 => Sys2Proof.Machine.execVscalefpd vl ev dst src1 src2 s
  | .vscalefss ev dst src1 src2 => Sys2Proof.Machine.execVscalefss ev dst src1 src2 s
  | .vscalefsd ev dst src1 src2 => Sys2Proof.Machine.execVscalefsd ev dst src1 src2 s
  | .roundps dst src imm => Sys2Proof.Machine.execRoundps dst src imm s
  | .roundpd dst src imm => Sys2Proof.Machine.execRoundpd dst src imm s
  | .roundss dst src imm => Sys2Proof.Machine.execRoundss dst src imm s
  | .roundsd dst src imm => Sys2Proof.Machine.execRoundsd dst src imm s
  | .vroundps vl dst src imm => Sys2Proof.Machine.execVroundps vl dst src imm s
  | .vroundpd vl dst src imm => Sys2Proof.Machine.execVroundpd vl dst src imm s
  | .vroundss dst src1 src2 imm => Sys2Proof.Machine.execVroundss dst src1 src2 imm s
  | .vroundsd dst src1 src2 imm => Sys2Proof.Machine.execVroundsd dst src1 src2 imm s
  | .haddps dst src => Sys2Proof.Machine.execHaddps dst src s
  | .haddpd dst src => Sys2Proof.Machine.execHaddpd dst src s
  | .vhaddps vl dst src1 src2 => Sys2Proof.Machine.execVhaddps vl dst src1 src2 s
  | .vhaddpd vl dst src1 src2 => Sys2Proof.Machine.execVhaddpd vl dst src1 src2 s
  | .hsubps dst src => Sys2Proof.Machine.execHsubps dst src s
  | .hsubpd dst src => Sys2Proof.Machine.execHsubpd dst src s
  | .vhsubps vl dst src1 src2 => Sys2Proof.Machine.execVhsubps vl dst src1 src2 s
  | .vhsubpd vl dst src1 src2 => Sys2Proof.Machine.execVhsubpd vl dst src1 src2 s
  | .addsubps dst src => Sys2Proof.Machine.execAddsubps dst src s
  | .addsubpd dst src => Sys2Proof.Machine.execAddsubpd dst src s
  | .vaddsubps vl dst src1 src2 => Sys2Proof.Machine.execVaddsubps vl dst src1 src2 s
  | .vaddsubpd vl dst src1 src2 => Sys2Proof.Machine.execVaddsubpd vl dst src1 src2 s
  | .cmpps dst src imm => Sys2Proof.Machine.execCmpps dst src imm s
  | .cmppd dst src imm => Sys2Proof.Machine.execCmppd dst src imm s
  | .cmpss dst src imm => Sys2Proof.Machine.execCmpss dst src imm s
  | .cmpsd dst src imm => Sys2Proof.Machine.execCmpsd dst src imm s
  | .vcmpps vl dst src1 src2 imm => Sys2Proof.Machine.execVcmpps vl dst src1 src2 imm s
  | .vcmppd vl dst src1 src2 imm => Sys2Proof.Machine.execVcmppd vl dst src1 src2 imm s
  | .vcmpss dst src1 src2 imm => Sys2Proof.Machine.execVcmpss dst src1 src2 imm s
  | .vcmpsd dst src1 src2 imm => Sys2Proof.Machine.execVcmpsd dst src1 src2 imm s
  | .dpps dst src imm => Sys2Proof.Machine.execDpps dst src imm s
  | .vdpps vl dst src1 src2 imm => Sys2Proof.Machine.execVdpps vl dst src1 src2 imm s
  | .rcpps dst src => Sys2Proof.Machine.execRcpps dst src s
  | .rcpss dst src => Sys2Proof.Machine.execRcpss dst src s
  | .vrcpps vl dst src => Sys2Proof.Machine.execVrcpps vl dst src s
  | .vrcpss dst src1 src2 => Sys2Proof.Machine.execVrcpss dst src1 src2 s
  | .rsqrtps dst src => Sys2Proof.Machine.execRsqrtps dst src s
  | .rsqrtss dst src => Sys2Proof.Machine.execRsqrtss dst src s
  | .vrsqrtps vl dst src => Sys2Proof.Machine.execVrsqrtps vl dst src s
  | .vrsqrtss dst src1 src2 => Sys2Proof.Machine.execVrsqrtss dst src1 src2 s
  | .vtestps vl src1 src2 => Sys2Proof.Machine.execVtestps vl src1 src2 s
  | .vtestpd vl src1 src2 => Sys2Proof.Machine.execVtestpd vl src1 src2 s

end Sys2Proof.Machine
end

