-- ==== Sys2Proof/Machine/Step.lean ====
section
/-!
DEFINITION. One step of the machine: what the core sends next, done to completion (spec/20_memory.md R34,
spec/70_reset_and_hazards.md R229).
-/

namespace Sys2Proof.Machine

/-- One step: the first of the inputs. A call is decoded and its instruction run; an action of the core's is done; without an
input nothing changes. -/
def step (s : State) : Host.Outcome State Fault Refusal :=
  match s.inputs with
  | [] => .next (idle s)
  | .call w _ :: _ => sendCall exec w s
  | c :: _ => coreAction c s

/-- The state with the descriptor whose low `nbits` bits are those of `w`, and whose other bits are 0, as the call the core
sends next. Its memory operand is that of the call it replaces, and the zero vector where there was none (assumption log 13,
DESIGN CHOICE). -/
def State.withFetchWord (s : State) (nbits w : Nat) : State := s.placeCall (BitVec.ofNat 64 (w % 2 ^ nbits))

end Sys2Proof.Machine
end

