-- ==== Sys2Proof/Safety.lean ====
section
/-!
DEFINITION. The words the claims use: the invariant of a state, what a safe step is, the real number a pattern denotes, and
what one call leaves, written from the rules and not through the operations that compute it.
-/

namespace Sys2Proof.Machine

/-- A register of MAXVL bits holds the value (R7, R19). -/
def fitsWidth (p : Params) (v : VecWord) : Bool := p.maxvl == .w512 || (v.b2 == 0 && v.b3 == 0)

/-- What an exception frame keeps is a call of the block (R212, R216). -/
def TrapFrame.holdsCall (t : TrapFrame) : Bool :=
  match t.faulting with
  | some (.call _ _) => true
  | _ => false

/-- The invariant: every register holds MAXVL bits and those that do not exist hold zero (R7, R19), MXCSR holds a legal value (R21,
R228), and every exception being handled was raised by a call (R212). -/
def State.Wf (s : State) : Prop :=
  (∀ r : VReg, fitsWidth s.cfg (s.readX r) = true ∧ (s.cfg.hasReg r = true ∨ s.readX r = VecWord.zero)) ∧
    s.mxcsr.extractLsb' 16 16 = 0 ∧ ∀ t ∈ s.traps, t.holdsCall = true

/-- A safe step answers a next state. -/
def State.Safe (s : State) : Prop := ∃ t, step s = .next t

/-- The six exception masks, MXCSR[12:7] (R21). -/
def State.masks (s : State) : FlagSet := s.mxcsr.extractLsb' 7 6

/-- Every exception is masked: no call faults (R211, R227). -/
def State.AllMasked (s : State) : Prop := s.masks = 0b111111

/-- Operand B of a call (R14). -/
def State.operandB (s : State) : Src → VecWord
  | .reg r => s.readX r
  | .mem => s.bmem

/-- The rounding mode of MXCSR.RC (R21, R61). -/
def State.mode (s : State) : RoundMode :=
  match (s.mxcsr.extractLsb' 13 2).toNat with
  | 0 => .rn
  | 1 => .rd
  | 2 => .ru
  | _ => .rz

/-- The status context of a call with a rounding mode and a set of suppressed flags, the rest of it from MXCSR (R52, R53): DAZ is
bit 6, FTZ is bit 15 where UM, bit 11, is 1. -/
def State.status (s : State) (rc : RoundMode) (suppress : FlagSet) : Status :=
  { rc := rc, flags := 0, suppress := suppress, masks := s.masks, daz := s.mxcsr.getLsbD 6
    ftz := s.mxcsr.getLsbD 15 && s.mxcsr.getLsbD 11 }

/-- The status context of an instruction that overrides nothing (R53). -/
def State.plainStatus (s : State) : Status := s.status s.mode 0

/-- The status context of an instruction with EVEX fields (R53): the override's mode if there is one, every flag suppressed under
an override or SAE. -/
def State.evexStatus (s : State) (ev : Evex) : Status :=
  s.status (ev.rc.getD s.mode) (if ev.rc.isSome || ev.sae then 0b111111 else 0)

/-- The status context of ROUND (R41, R53): the mode from IMM8[1:0], or from MXCSR.RC when IMM8[2] is 1; PE suppressed when IMM8[3]
is 1. -/
def State.roundStatus (s : State) (imm : BitVec 8) : Status :=
  s.status
    (if imm.getLsbD 2 then s.mode
     else match (imm.extractLsb' 0 2).toNat with
       | 0 => .rn
       | 1 => .rd
       | 2 => .ru
       | _ => .rz)
    (if imm.getLsbD 3 then 0b100000 else 0)

/-- Lane `i` is enabled (R14, R87). -/
def State.laneEnabled (s : State) (ev : Evex) (i : Nat) : Bool := ev.ksel == 0 || (s.readK ev.ksel).getLsbD i

/-- The active lane count of a vector length (R85). -/
def VLen.lanes (f : Fmt) : VLen → Nat
  | .v128 => 128 / f.w
  | .v256 => 256 / f.w
  | .v512 => 512 / f.w

/-- The state after a call that completed: the destination and MXCSR's sticky flags are written, the core has moved on, and
nothing else has changed (R211). -/
def State.written (s : State) (dst : VReg) (R : VecWord) (fl : FlagSet) : State :=
  { s with
    x := s.x.set dst.toNat R dst.isLt
    mxcsr := s.mxcsr ||| fl.setWidth 32
    inputs := s.inputs.tail }

/-- The flags the core records when the call faults (R211): under P_CORE_FILTER, IE, DE and ZE alone when one of them is unmasked. -/
def State.recordedOnFault (s : State) (fl : FlagSet) : FlagSet :=
  if s.cfg.coreFilter = true ∧ fl &&& ~~~s.masks &&& 0b000111 ≠ 0 then fl &&& 0b000111 else fl

/-- The state after a call that faulted (R211, R212): MXCSR's flags are recorded, `#XM` or `#UD` is taken at the faulting call, and
nothing else has changed. That the exception is pushed on the list `traps` and its call taken from the inputs is the model's choice
(assumption log 7, DESIGN CHOICE). -/
def State.trapped (s : State) (fl : FlagSet) : State :=
  { s with
    mxcsr := s.mxcsr ||| (s.recordedOnFault fl).setWidth 32
    traps := { vector := if s.osxmmexcpt then .xm else .ud, faulting := s.inputs.head? } :: s.traps
    inputs := s.inputs.tail }

/-- The state after a call with result `R` and report `fl` (R211): the call completes when every flag it reports is masked, and takes
the exception when one is not. -/
def State.committed (s : State) (dst : VReg) (R : VecWord) (fl : FlagSet) : State :=
  if fl &&& ~~~s.masks = 0 then s.written dst R fl else s.trapped fl

/-- `fl` is what a call reports (R55, R56, R87): a flag is set when it is not suppressed and the computation of an enabled lane
below `n` set it. -/
def Reports (fl suppress : FlagSet) (n : Nat) (enabled : Nat → Bool) (raised : Nat → FlagSet) : Prop :=
  ∀ b < 6, fl.getLsbD b = true ↔
    suppress.getLsbD b = false ∧ ∃ i < n, enabled i = true ∧ (raised i).getLsbD b = true

/-- `R` and `fl` are the result and the report of a packed legacy form with lane results `t` (R55, R56, R89). -/
def LegacyPacked (f : Fmt) (t : Nat → LaneRes f) (s : State) (suppress : FlagSet) (dst : VReg) (R : VecWord) (fl : FlagSet) : Prop :=
  (∀ i < 128 / f.w, lane f R i = (t i).val) ∧
    R.b1 = (s.readX dst).b1 ∧ R.b2 = (s.readX dst).b2 ∧ R.b3 = (s.readX dst).b3 ∧
    Reports fl suppress (128 / f.w) (fun _ => true) (fun i => (t i).flags)

/-- `R` and `fl` are the result and the report of a scalar legacy form with lane result `t` (R55, R56, R91). -/
def LegacyScalar (f : Fmt) (t : LaneRes f) (s : State) (suppress : FlagSet) (dst : VReg) (R : VecWord) (fl : FlagSet) : Prop :=
  lane f R 0 = t.val ∧
    (∀ i < 128 / f.w, i ≠ 0 → lane f R i = lane f (s.readX dst) i) ∧
    R.b1 = (s.readX dst).b1 ∧ R.b2 = (s.readX dst).b2 ∧ R.b3 = (s.readX dst).b3 ∧
    Reports fl suppress 1 (fun _ => true) (fun _ => t.flags)

/-- `R` and `fl` are the result and the report of a packed non-legacy form with lane results `t` (R55, R56, R87, R88). -/
def NonLegacyPacked (f : Fmt) (t : Nat → LaneRes f) (s : State) (suppress : FlagSet) (vl : VLen) (ev : Evex) (dst : VReg)
    (R : VecWord) (fl : FlagSet) : Prop :=
  (∀ i < VLen.lanes f vl, lane f R i =
      if s.laneEnabled ev i then (t i).val else if ev.kz then 0 else lane f (s.readX dst) i) ∧
    (∀ i < 512 / f.w, VLen.lanes f vl ≤ i → lane f R i = 0) ∧
    Reports fl suppress (VLen.lanes f vl) (s.laneEnabled ev) (fun i => (t i).flags)

/-- `R` and `fl` are the result and the report of a scalar non-legacy form with lane result `t` (R55, R56, R87, R92). -/
def NonLegacyScalar (f : Fmt) (t : LaneRes f) (s : State) (suppress : FlagSet) (ev : Evex) (dst src1 : VReg) (R : VecWord)
    (fl : FlagSet) : Prop :=
  lane f R 0 = (if s.laneEnabled ev 0 then t.val else if ev.kz then 0 else lane f (s.readX dst) 0) ∧
    (∀ i < 128 / f.w, i ≠ 0 → lane f R i = lane f (s.readX src1) i) ∧
    R.b1 = 0 ∧ R.b2 = 0 ∧ R.b3 = 0 ∧
    Reports fl suppress 1 (s.laneEnabled ev) (fun _ => t.flags)

/-- The type of a lane primitive of two operands. -/
abbrev Primitive := Params → (f : Fmt) → Status → BitVec f.w → BitVec f.w → LaneRes f

/-- A primitive of one operand, operand B, in the place of one of two (R95). -/
def unary (u : Params → (f : Fmt) → Status → BitVec f.w → LaneRes f) : Primitive := fun p f st _ b => u p f st b

/-- The lane results of the masked reduction, in sub-block `j` (R188), written out: the products of the lanes the high nibble
selects, the four pair sums, the totals of the lanes the low nibble selects. The flags of a lane are those its product, its
pair sum and its total set. -/
def dotProduct (p : Params) (st : Status) (imm : BitVec 8) (a b : VecWord) (j : Nat) : Nat → LaneRes .f32 :=
  let none : LaneRes .f32 := { val := 0#32, flags := 0 }
  let m (l : Nat) := if imm.getLsbD (4 + l) then mulW p .f32 st (lane .f32 a (4 * j + l)) (lane .f32 b (4 * j + l)) else none
  let p0 := addW p .f32 st (m 1).val (m 0).val
  let p1 := addW p .f32 st (m 0).val (m 1).val
  let p2 := addW p .f32 st (m 3).val (m 2).val
  let p3 := addW p .f32 st (m 2).val (m 3).val
  let total (l : Nat) (x y : LaneRes .f32) : LaneRes .f32 :=
    let t := if imm.getLsbD l then addW p .f32 st x.val y.val else none
    { val := t.val, flags := (m l).flags ||| x.flags ||| t.flags }
  fun
  | 0 => total 0 p0 p2
  | 1 => total 1 p1 p3
  | 2 => total 2 p2 p0
  | _ => total 3 p3 p1

/-- Horizontal lanes (R165, R166): lane `l` of each sub-block of `t` is the primitive on an adjacent pair, operand A's pairs in the
low lanes and operand B's in the high ones. -/
def IsHorizontal (f : Fmt) (op : BitVec f.w → BitVec f.w → LaneRes f) (a b : VecWord) (t : Nat → LaneRes f) : Prop :=
  match f with
  | .f32 => ∀ j < 4,
      t (4 * j) = op (lane .f32 a (4 * j)) (lane .f32 a (4 * j + 1)) ∧
      t (4 * j + 1) = op (lane .f32 a (4 * j + 2)) (lane .f32 a (4 * j + 3)) ∧
      t (4 * j + 2) = op (lane .f32 b (4 * j)) (lane .f32 b (4 * j + 1)) ∧
      t (4 * j + 3) = op (lane .f32 b (4 * j + 2)) (lane .f32 b (4 * j + 3))
  | .f64 => ∀ j < 4,
      t (2 * j) = op (lane .f64 a (2 * j)) (lane .f64 a (2 * j + 1)) ∧
      t (2 * j + 1) = op (lane .f64 b (2 * j)) (lane .f64 b (2 * j + 1))

/-- The pattern is finite (R58). -/
def isFinite (f : Fmt) (x : BitVec f.w) : Bool := expField f x != f.expOnes

/-- `real(x)` of a finite pattern (R58). -/
def realOf (f : Fmt) (x : BitVec f.w) : ℚ :=
  (if sign f x then -1 else 1) *
    (if expField f x = 0 then (2 : ℚ) ^ f.emin * ((frac f x : ℚ) / 2 ^ (f.p - 1))
     else (2 : ℚ) ^ ((expField f x : ℤ) - f.bias) * (1 + (frac f x : ℚ) / 2 ^ (f.p - 1)))

/-- `a < b` of two patterns that are no NaN: `-inf < finite < +inf` (R75). -/
def LessThan (f : Fmt) (a b : BitVec f.w) : Prop :=
  if isInf f a then sign f a = true ∧ ¬(isInf f b = true ∧ sign f b = true)
  else if isInf f b then sign f b = false
  else realOf f a < realOf f b

/-- The integer that a rounding mode gives for a rational number of either sign (R61): a floor or a ceiling, or to nearest with an
exact half going to the even one. -/
def roundedTo (m : RoundMode) (x : ℚ) : ℤ :=
  match m with
  | .rd => ⌊x⌋
  | .ru => ⌈x⌉
  | .rz => if 0 ≤ x then ⌊x⌋ else ⌈x⌉
  | .rn =>
    if x - ⌊x⌋ < 1 / 2 then ⌊x⌋
    else if 1 / 2 < x - ⌊x⌋ then ⌊x⌋ + 1
    else if ⌊x⌋ % 2 = 0 then ⌊x⌋ else ⌊x⌋ + 1

/-- The positive number `v`, rounded to `p` bits with no bound on the exponent, is not below the power of two `B` (R62's `ru`). The
`p`-bit number next below `B` is `B * (1 - 2^-p)`: what lies above it goes to `B` when rounding away from zero; to nearest, `B` takes
everything from the half between the two on, itself included, since `B` is the even one; towards zero nothing below `B` reaches it. -/
def RoundsUpTo (f : Fmt) (m : RoundMode) (s : Bool) (B v : ℚ) : Prop :=
  match m, s with
  | .rn, _ => B * (1 - (2 : ℚ) ^ (-(f.p : ℤ) - 1)) ≤ v
  | .ru, false => B * (1 - (2 : ℚ) ^ (-(f.p : ℤ))) < v
  | .rd, true => B * (1 - (2 : ℚ) ^ (-(f.p : ℤ))) < v
  | .ru, true => B ≤ v
  | .rd, false => B ≤ v
  | .rz, _ => B ≤ v

/-- A result of magnitude `v` is tiny (R64): by the parameter, rounded to `p` bits with no bound on the exponent, or unrounded. -/
def Tiny (p : Params) (f : Fmt) (m : RoundMode) (s : Bool) (v : ℚ) : Prop :=
  match p.tininess with
  | .after => ¬RoundsUpTo f m s ((2 : ℚ) ^ f.emin) v
  | .before => v < (2 : ℚ) ^ f.emin

end Sys2Proof.Machine
end

