-- ==== Sys2Proof/Certificates/Slice0/Obligations.lean ====
section
/-!
DEFINITION. The statements for the provers, from the numbered rules of spec/: descriptors, the step, the invariant, the frame, one
statement of the result for each shape of instruction, the exception, the core's actions, the lane primitives, rounding.
-/

open Sys2Proof Sys2Proof.Machine

/-! ### Descriptors -/

/-- R51: the two worked encodings, both ways. -/
def Obligations.WorkedEncodings : Prop :=
  ∀ p : Params,
    decode p 0x0000000041000500 = .ok (.vaddps .v256 .plain 0 1 (.reg 2)) ∧
      encode (.vaddps .v256 .plain 0 1 (.reg 2)) = 0x0000000041000500 ∧
      decode p 0x000001008318000C = .ok (.cmpps 3 (.reg 4) 1) ∧
      encode (.cmpps 3 (.reg 4) 1) = 0x000001008318000C

/-- R38, R46: an instruction whose operands the machine has is read back from its own descriptor. -/
def Obligations.DecodeOfEncode : Prop :=
  ∀ (p : Params) (i : Instr), i.wellFormed = true → i.fits p = true → decode p (encode i) = .ok i

/-- R46: a descriptor that decodes is the one descriptor of its instruction, which is well formed and has its operands. -/
def Obligations.EncodeOfDecode : Prop :=
  ∀ (p : Params) (w : BitVec 64) (i : Instr),
    decode p w = .ok i → encode i = w ∧ i.wellFormed = true ∧ i.fits p = true

/-- R45: `legal`, test by test in its order on the bits of the descriptor; a descriptor that passes every test is an
instruction. -/
def Obligations.LegalDescriptors : Prop :=
  ∀ (p : Params) (d : BitVec 64),
    let op := (d.extractLsb' 0 6).toNat
    let scalar := d.getLsbD 6
    let dbl := d.getLsbD 7
    let vl := (d.extractLsb' 8 2).toNat
    let nl := d.getLsbD 10
    let rcv := d.getLsbD 11
    let rcm := (d.extractLsb' 12 2).toNat
    let sae := d.getLsbD 14
    let kz := d.getLsbD 15
    let ksel := (d.extractLsb' 16 3).toNat
    let dst := (d.extractLsb' 19 5).toNat
    let src1 := (d.extractLsb' 24 5).toNat
    let src2 := (d.extractLsb' 29 5).toNat
    let mem := d.getLsbD 34
    let imm := (d.extractLsb' 40 8).toNat
    let nvreg := match p.nvreg with | .n16 => 16 | .n32 => 32
    let arith := op < 8
    let refuse (r : RefuseReason) : Prop := decode p d = .error r
    if (d.extractLsb' 48 16).toNat ≠ 0 ∨ (d.extractLsb' 35 5).toNat ≠ 0 then refuse .reservedBits
    else if 16 < op then refuse .reservedOp
    else if vl = 3 then refuse .reservedVl
    else if p.maxvl.bits < 128 * 2 ^ vl then refuse .vlExceedsMaxvl
    else if nvreg ≤ max dst (max src1 src2) then refuse .regRange
    else if ¬arith ∧ 16 ≤ max dst (max src1 src2) then refuse .regRangeVex
    else if mem = true ∧ src2 ≠ 0 then refuse .memSrc2
    else if nl = false ∧ vl ≠ 0 then refuse .legacyVl
    else if nl = false ∧ src1 ≠ dst then refuse .legacySrc1
    else if nl = false ∧ 16 ≤ max dst src2 then refuse .regRangeLegacy
    else if nl = false ∧ op ∈ [7, 16] then refuse .noLegacyForm
    else if scalar = true ∧ vl ≠ 0 then refuse .scalarVl
    else if scalar = true ∧ op ∈ [9, 10, 11, 13, 16] then refuse .noScalarForm
    else if dbl = true ∧ op ∈ [13, 14, 15] then refuse .noDoubleForm
    else if vl = 2 ∧ ¬arith then refuse .no512Form
    else if (rcv = true ∨ sae = true ∨ kz = true ∨ ksel ≠ 0) ∧ (nl = false ∨ ¬arith) then refuse .noEvexFeature
    else if rcv = true ∧ op ∈ [4, 5] then refuse .noRoundingOverride
    else if rcv = false ∧ rcm ≠ 0 then refuse .rcmWithoutRcv
    else if kz = true ∧ ksel = 0 then refuse .zeroingWithoutMask
    else if op ∈ [6, 8, 14, 15] ∧ scalar = false ∧ nl = true ∧ src1 ≠ 0 then refuse .unarySrc1
    else if op ∉ [8, 12, 13] ∧ imm ≠ 0 then refuse .immUnused
    else if op = 16 ∧ dst ≠ src1 then refuse .testDst
    else ∃ i, decode p d = .ok i

/-! ### The step and the invariant -/

/-- R14, R34: a call whose descriptor decodes runs its instruction, which is all the step does. -/
def Obligations.StepRunsTheInstruction : Prop :=
  ∀ (s : State) (w : BitVec 64) (m : VecWord) (rest : List CoreInput) (i : Instr),
    s.inputs = .call w m :: rest → decode s.cfg w = .ok i → step s = exec i s

/-- R15: a call whose descriptor is not legal is refused, by the reason `legal` gives. -/
def Obligations.StepRefusesIllegalDescriptors : Prop :=
  ∀ (s : State) (w : BitVec 64) (m : VecWord) (rest : List CoreInput) (r : RefuseReason),
    s.inputs = .call w m :: rest → decode s.cfg w = .error r → step s = .refused (.descriptor r)

/-- The invariant is kept by every step. -/
def Obligations.StepKeepsInvariant : Prop :=
  ∀ s t : State, s.Wf → step s = .next t → t.Wf

/-- The invariant holds after reset, whatever the parameters. -/
def Obligations.ResetHasInvariant : Prop :=
  State.reset.Wf ∧ ∀ p : Params, (State.resetWith p).Wf

/-- R228: the parameters never change. -/
def Obligations.StepKeepsParameters : Prop :=
  ∀ s t : State, step s = .next t → t.cfg = s.cfg

/-! ### What every instruction does -/

/-- The register an instruction writes: DST, which VTESTPS and VTESTPD do not write (R93). -/
def writtenRegister (i : Instr) : Option VReg := if i.desc.op = 16 then none else some i.desc.dst

/-- The frame of every instruction (R19, R20, R22, R24, R211): only the destination register, MXCSR's six flags (set, never
cleared), the condition flags (VTEST alone), the exceptions being handled and the input just done can change. -/
def Obligations.ExecFrame : Prop :=
  ∀ (i : Instr) (s t : State), exec i s = .next t →
    (∀ r : VReg, writtenRegister i ≠ some r → t.readX r = s.readX r) ∧
      t.k = s.k ∧ t.osxmmexcpt = s.osxmmexcpt ∧ t.cfg = s.cfg ∧ t.inputs = s.inputs.tail ∧
      (∀ b, 6 ≤ b → t.mxcsr.getLsbD b = s.mxcsr.getLsbD b) ∧
      (∀ b, s.mxcsr.getLsbD b = true → t.mxcsr.getLsbD b = true) ∧
      (i.desc.op ≠ 16 → t.cond = s.cond) ∧
      (i.desc.op ≠ 7 → t.draws = s.draws)

/-- R211, R212: an instruction completes, taking no exception, or it takes one: then a newly recorded flag is unmasked, the
vector is `#XM` or `#UD` by CR4.OSXMMEXCPT, the call is kept, and no register, mask register or condition flag changes. -/
def Obligations.CompletesOrTakesException : Prop :=
  ∀ (i : Instr) (s t : State), exec i s = .next t →
    t.traps = s.traps ∨
      (t.traps = { vector := if s.osxmmexcpt then .xm else .ud, faulting := s.inputs.head? } :: s.traps ∧
        t.x = s.x ∧ t.k = s.k ∧ t.cond = s.cond ∧ t.osxmmexcpt = s.osxmmexcpt ∧
        ∃ fl : FlagSet, fl &&& ~~~s.masks ≠ 0 ∧ t.mxcsr = s.mxcsr ||| fl.setWidth 32)

/-- R71, R208: every instruction that has its operands completes when every exception is masked, whatever the operands. -/
def Obligations.MaskedCallsComplete : Prop :=
  ∀ (i : Instr) (s : State), i.wellFormed = true → i.fits s.cfg = true → s.AllMasked →
    ∃ t, exec i s = .next t ∧ t.traps = s.traps ∧ t.inputs = s.inputs.tail

/-- R15, R45: an instruction whose operands have no legal descriptor on the machine is refused. -/
def Obligations.IllFormedIsRefused : Prop :=
  ∀ (i : Instr) (s : State), ¬(i.wellFormed = true ∧ i.fits s.cfg = true) → ∃ r, exec i s = .refused (.descriptor r)

/-! ### The result of each shape of instruction, every exception masked -/

/-- The packed legacy forms whose lanes are one primitive each, with the primitive (R101 to R156); `imm` is the compares'. -/
def legacyPackedForms (imm : BitVec 8) : List ((VReg → Src → Instr) × Fmt × Primitive) :=
  [(.addps, .f32, addW), (.addpd, .f64, addW), (.subps, .f32, subW), (.subpd, .f64, subW),
   (.mulps, .f32, mulW), (.mulpd, .f64, mulW), (.divps, .f32, divW), (.divpd, .f64, divW),
   (.minps, .f32, minW), (.minpd, .f64, minW), (.maxps, .f32, maxW), (.maxpd, .f64, maxW),
   (.sqrtps, .f32, unary sqrtW), (.sqrtpd, .f64, unary sqrtW),
   (fun d b => .cmpps d b imm, .f32, cmpW (BitVec.ofNat 5 (imm.toNat % 8))),
   (fun d b => .cmppd d b imm, .f64, cmpW (BitVec.ofNat 5 (imm.toNat % 8)))]

/-- The scalar legacy forms, likewise. -/
def legacyScalarForms (imm : BitVec 8) : List ((VReg → Src → Instr) × Fmt × Primitive) :=
  [(.addss, .f32, addW), (.addsd, .f64, addW), (.subss, .f32, subW), (.subsd, .f64, subW),
   (.mulss, .f32, mulW), (.mulsd, .f64, mulW), (.divss, .f32, divW), (.divsd, .f64, divW),
   (.minss, .f32, minW), (.minsd, .f64, minW), (.maxss, .f32, maxW), (.maxsd, .f64, maxW),
   (.sqrtss, .f32, unary sqrtW), (.sqrtsd, .f64, unary sqrtW),
   (fun d b => .cmpss d b imm, .f32, cmpW (BitVec.ofNat 5 (imm.toNat % 8))),
   (fun d b => .cmpsd d b imm, .f64, cmpW (BitVec.ofNat 5 (imm.toNat % 8)))]

/-- The packed EVEX forms, likewise; SQRT has no operand A. -/
def evexPackedForms : List ((VLen → Evex → VReg → VReg → Src → Instr) × Fmt × Primitive) :=
  [(.vaddps, .f32, addW), (.vaddpd, .f64, addW), (.vsubps, .f32, subW), (.vsubpd, .f64, subW),
   (.vmulps, .f32, mulW), (.vmulpd, .f64, mulW), (.vdivps, .f32, divW), (.vdivpd, .f64, divW),
   (.vminps, .f32, minW), (.vminpd, .f64, minW), (.vmaxps, .f32, maxW), (.vmaxpd, .f64, maxW),
   (fun vl ev d _ b => .vsqrtps vl ev d b, .f32, unary sqrtW), (fun vl ev d _ b => .vsqrtpd vl ev d b, .f64, unary sqrtW)]

/-- The scalar EVEX forms, likewise. -/
def evexScalarForms : List ((Evex → VReg → VReg → Src → Instr) × Fmt × Primitive) :=
  [(.vaddss, .f32, addW), (.vaddsd, .f64, addW), (.vsubss, .f32, subW), (.vsubsd, .f64, subW),
   (.vmulss, .f32, mulW), (.vmulsd, .f64, mulW), (.vdivss, .f32, divW), (.vdivsd, .f64, divW),
   (.vminss, .f32, minW), (.vminsd, .f64, minW), (.vmaxss, .f32, maxW), (.vmaxsd, .f64, maxW),
   (.vsqrtss, .f32, unary sqrtW), (.vsqrtsd, .f64, unary sqrtW)]

/-- ADD, SUB, MUL, DIV, MIN, MAX, SQRT, CMP, packed legacy: each lane of bits 127:0 is the primitive of the operands' lanes, the
bits above keep their value, MXCSR gains the flags of the four or two lanes, nothing else changes. -/
def Obligations.LegacyPackedResult : Prop :=
  ∀ (imm : BitVec 8), ∀ e ∈ legacyPackedForms imm, ∀ (s : State) (dst : VReg) (src : Src),
    s.Wf → s.AllMasked → VReg.low dst = true → src.low = true →
    ∃ (R : VecWord) (fl : FlagSet),
      exec (e.1 dst src) s = .next (s.written dst R fl) ∧
        LegacyPacked e.2.1
          (fun i => e.2.2 s.cfg e.2.1 s.plainStatus (lane e.2.1 (s.readX dst) i) (lane e.2.1 (s.operandB src) i)) s 0 dst R fl

/-- The same, scalar legacy: lane 0 is the primitive of the operands' lanes 0, every bit above keeps its value. -/
def Obligations.LegacyScalarResult : Prop :=
  ∀ (imm : BitVec 8), ∀ e ∈ legacyScalarForms imm, ∀ (s : State) (dst : VReg) (src : Src),
    s.Wf → s.AllMasked → VReg.low dst = true → src.low = true →
    ∃ (R : VecWord) (fl : FlagSet),
      exec (e.1 dst src) s = .next (s.written dst R fl) ∧
        LegacyScalar e.2.1
          (e.2.2 s.cfg e.2.1 s.plainStatus (lane e.2.1 (s.readX dst) 0) (lane e.2.1 (s.operandB src) 0)) s 0 dst R fl

/-- ADD, SUB, MUL, DIV, MIN, MAX, SQRT, packed VEX or EVEX, with the mask, zeroing, rounding override and SAE: an enabled active lane
is the primitive of the operands' lanes, a disabled one is merged or zeroed, those above the length are zero. -/
def Obligations.EvexPackedResult : Prop :=
  ∀ e ∈ evexPackedForms, ∀ (s : State) (vl : VLen) (ev : Evex) (dst src1 : VReg) (src2 : Src),
    s.Wf → s.AllMasked → (e.1 vl ev dst src1 src2).wellFormed = true → (e.1 vl ev dst src1 src2).fits s.cfg = true →
    ∃ (R : VecWord) (fl : FlagSet),
      exec (e.1 vl ev dst src1 src2) s = .next (s.written dst R fl) ∧
        NonLegacyPacked e.2.1
          (fun i => e.2.2 s.cfg e.2.1 (s.evexStatus ev) (lane e.2.1 (s.readX src1) i) (lane e.2.1 (s.operandB src2) i))
          s (s.evexStatus ev).suppress vl ev dst R fl

/-- The same, scalar: lane 0 is the primitive of the operands' lanes 0 where it is enabled, bits 127 up to it are operand A's,
those above are zero. -/
def Obligations.EvexScalarResult : Prop :=
  ∀ e ∈ evexScalarForms, ∀ (s : State) (ev : Evex) (dst src1 : VReg) (src2 : Src),
    s.Wf → s.AllMasked → (e.1 ev dst src1 src2).wellFormed = true → (e.1 ev dst src1 src2).fits s.cfg = true →
    ∃ (R : VecWord) (fl : FlagSet),
      exec (e.1 ev dst src1 src2) s = .next (s.written dst R fl) ∧
        NonLegacyScalar e.2.1
          (e.2.2 s.cfg e.2.1 (s.evexStatus ev) (lane e.2.1 (s.readX src1) 0) (lane e.2.1 (s.operandB src2) 0))
          s (s.evexStatus ev).suppress ev dst src1 R fl

/-- SCALEF, packed and scalar (R160 to R163): as the other EVEX forms, each lane with a free value of its own where the
parameter lets the result be any value (assumption log 6); the counter of free values moves on. The call completes when every flag it
reports is masked, which it is when every exception is, and takes the exception when one is not; how the exception is kept is the
model's choice (assumption log 7). -/
def Obligations.ScalefResult : Prop :=
  (∀ e ∈ ([(.vscalefps, .f32), (.vscalefpd, .f64)] : List ((VLen → Evex → VReg → VReg → Src → Instr) × Fmt)),
    ∀ (s : State) (vl : VLen) (ev : Evex) (dst src1 : VReg) (src2 : Src),
      s.Wf → (e.1 vl ev dst src1 src2).wellFormed = true → (e.1 vl ev dst src1 src2).fits s.cfg = true →
      ∃ (R : VecWord) (fl : FlagSet) (n : Nat),
        exec (e.1 vl ev dst src1 src2) s = .next { s.committed dst R fl with draws := n } ∧
          (s.AllMasked → exec (e.1 vl ev dst src1 src2) s = .next { s.written dst R fl with draws := n }) ∧
          NonLegacyPacked e.2
            (fun i => scalefW (Config.freeLane (s.draws + i)) s.cfg e.2 (s.evexStatus ev) (lane e.2 (s.readX src1) i)
              (lane e.2 (s.operandB src2) i))
            s (s.evexStatus ev).suppress vl ev dst R fl ∧
          ∀ i < VLen.lanes e.2 vl, s.draws + i < n) ∧
  (∀ e ∈ ([(.vscalefss, .f32), (.vscalefsd, .f64)] : List ((Evex → VReg → VReg → Src → Instr) × Fmt)),
    ∀ (s : State) (ev : Evex) (dst src1 : VReg) (src2 : Src),
      s.Wf → (e.1 ev dst src1 src2).wellFormed = true → (e.1 ev dst src1 src2).fits s.cfg = true →
      ∃ (R : VecWord) (fl : FlagSet) (n : Nat),
        exec (e.1 ev dst src1 src2) s = .next { s.committed dst R fl with draws := n } ∧
          (s.AllMasked → exec (e.1 ev dst src1 src2) s = .next { s.written dst R fl with draws := n }) ∧
          NonLegacyScalar e.2
            (scalefW (Config.freeLane s.draws) s.cfg e.2 (s.evexStatus ev) (lane e.2 (s.readX src1) 0)
              (lane e.2 (s.operandB src2) 0))
            s (s.evexStatus ev).suppress ev dst src1 R fl ∧
          s.draws < n)

/-- CMP, VEX, packed and scalar (R81 to R84): the predicate is the five low bits of the immediate. The call completes when every flag it
reports is masked, which it is when every exception is, and takes the exception when one is not; how the exception is kept is the
model's choice (assumption log 7). -/
def Obligations.VexCompareResult : Prop :=
  (∀ e ∈ ([(.vcmpps, .f32), (.vcmppd, .f64)] : List ((VLen → VReg → VReg → Src → BitVec 8 → Instr) × Fmt)),
    ∀ (s : State) (vl : VLen) (dst src1 : VReg) (src2 : Src) (imm : BitVec 8),
      s.Wf → vl ≠ .v512 → VReg.low dst = true → VReg.low src1 = true → src2.low = true →
      ∃ (R : VecWord) (fl : FlagSet),
        exec (e.1 vl dst src1 src2 imm) s = .next (s.committed dst R fl) ∧
          (s.AllMasked → exec (e.1 vl dst src1 src2 imm) s = .next (s.written dst R fl)) ∧
          NonLegacyPacked e.2
            (fun i => cmpW (BitVec.ofNat 5 (imm.toNat % 32)) s.cfg e.2 s.plainStatus (lane e.2 (s.readX src1) i)
              (lane e.2 (s.operandB src2) i))
            s 0 vl .plain dst R fl) ∧
  (∀ e ∈ ([(.vcmpss, .f32), (.vcmpsd, .f64)] : List ((VReg → VReg → Src → BitVec 8 → Instr) × Fmt)),
    ∀ (s : State) (dst src1 : VReg) (src2 : Src) (imm : BitVec 8),
      s.Wf → VReg.low dst = true → VReg.low src1 = true → src2.low = true →
      ∃ (R : VecWord) (fl : FlagSet),
        exec (e.1 dst src1 src2 imm) s = .next (s.committed dst R fl) ∧
          (s.AllMasked → exec (e.1 dst src1 src2 imm) s = .next (s.written dst R fl)) ∧
          NonLegacyScalar e.2
            (cmpW (BitVec.ofNat 5 (imm.toNat % 32)) s.cfg e.2 s.plainStatus (lane e.2 (s.readX src1) 0)
              (lane e.2 (s.operandB src2) 0))
            s 0 .plain dst src1 R fl)

/-- ROUND, all eight forms (R168 to R175): the mode and the suppressed PE come from the immediate. The call completes when every flag it
reports is masked, which it is when every exception is, and takes the exception when one is not; how the exception is kept is the
model's choice (assumption log 7). -/
def Obligations.RoundResult : Prop :=
  (∀ e ∈ ([(.roundps, .f32), (.roundpd, .f64)] : List ((VReg → Src → BitVec 8 → Instr) × Fmt)),
    ∀ (s : State) (dst : VReg) (src : Src) (imm : BitVec 8),
      s.Wf → VReg.low dst = true → src.low = true →
      ∃ (R : VecWord) (fl : FlagSet),
        exec (e.1 dst src imm) s = .next (s.committed dst R fl) ∧
          (s.AllMasked → exec (e.1 dst src imm) s = .next (s.written dst R fl)) ∧
          LegacyPacked e.2 (fun i => roundW s.cfg e.2 (s.roundStatus imm) (lane e.2 (s.operandB src) i))
            s (s.roundStatus imm).suppress dst R fl) ∧
  (∀ e ∈ ([(.roundss, .f32), (.roundsd, .f64)] : List ((VReg → Src → BitVec 8 → Instr) × Fmt)),
    ∀ (s : State) (dst : VReg) (src : Src) (imm : BitVec 8),
      s.Wf → VReg.low dst = true → src.low = true →
      ∃ (R : VecWord) (fl : FlagSet),
        exec (e.1 dst src imm) s = .next (s.committed dst R fl) ∧
          (s.AllMasked → exec (e.1 dst src imm) s = .next (s.written dst R fl)) ∧
          LegacyScalar e.2 (roundW s.cfg e.2 (s.roundStatus imm) (lane e.2 (s.operandB src) 0))
            s (s.roundStatus imm).suppress dst R fl) ∧
  (∀ e ∈ ([(.vroundps, .f32), (.vroundpd, .f64)] : List ((VLen → VReg → Src → BitVec 8 → Instr) × Fmt)),
    ∀ (s : State) (vl : VLen) (dst : VReg) (src : Src) (imm : BitVec 8),
      s.Wf → vl ≠ .v512 → VReg.low dst = true → src.low = true →
      ∃ (R : VecWord) (fl : FlagSet),
        exec (e.1 vl dst src imm) s = .next (s.committed dst R fl) ∧
          (s.AllMasked → exec (e.1 vl dst src imm) s = .next (s.written dst R fl)) ∧
          NonLegacyPacked e.2 (fun i => roundW s.cfg e.2 (s.roundStatus imm) (lane e.2 (s.operandB src) i))
            s (s.roundStatus imm).suppress vl .plain dst R fl) ∧
  (∀ e ∈ ([(.vroundss, .f32), (.vroundsd, .f64)] : List ((VReg → VReg → Src → BitVec 8 → Instr) × Fmt)),
    ∀ (s : State) (dst src1 : VReg) (src2 : Src) (imm : BitVec 8),
      s.Wf → VReg.low dst = true → VReg.low src1 = true → src2.low = true →
      ∃ (R : VecWord) (fl : FlagSet),
        exec (e.1 dst src1 src2 imm) s = .next (s.committed dst R fl) ∧
          (s.AllMasked → exec (e.1 dst src1 src2 imm) s = .next (s.written dst R fl)) ∧
          NonLegacyScalar e.2 (roundW s.cfg e.2 (s.roundStatus imm) (lane e.2 (s.operandB src2) 0))
            s (s.roundStatus imm).suppress .plain dst src1 R fl)

/-- HADD and HSUB, legacy and VEX (R165, R166): the lanes of each sub-block are sums or differences of adjacent lanes of that
sub-block, operand A's pairs first. The call completes when every flag it
reports is masked, which it is when every exception is, and takes the exception when one is not; how the exception is kept is the
model's choice (assumption log 7). -/
def Obligations.HorizontalResult : Prop :=
  (∀ e ∈ ([(.haddps, .f32, addW), (.haddpd, .f64, addW), (.hsubps, .f32, subW), (.hsubpd, .f64, subW)] :
        List ((VReg → Src → Instr) × Fmt × Primitive)),
    ∀ (s : State) (dst : VReg) (src : Src), s.Wf → VReg.low dst = true → src.low = true →
      ∃ (R : VecWord) (fl : FlagSet) (t : Nat → LaneRes e.2.1),
        exec (e.1 dst src) s = .next (s.committed dst R fl) ∧
          (s.AllMasked → exec (e.1 dst src) s = .next (s.written dst R fl)) ∧
          IsHorizontal e.2.1 (e.2.2 s.cfg e.2.1 s.plainStatus) (s.readX dst) (s.operandB src) t ∧
          LegacyPacked e.2.1 t s 0 dst R fl) ∧
  (∀ e ∈ ([(.vhaddps, .f32, addW), (.vhaddpd, .f64, addW), (.vhsubps, .f32, subW), (.vhsubpd, .f64, subW)] :
        List ((VLen → VReg → VReg → Src → Instr) × Fmt × Primitive)),
    ∀ (s : State) (vl : VLen) (dst src1 : VReg) (src2 : Src),
      s.Wf → vl ≠ .v512 → VReg.low dst = true → VReg.low src1 = true → src2.low = true →
      ∃ (R : VecWord) (fl : FlagSet) (t : Nat → LaneRes e.2.1),
        exec (e.1 vl dst src1 src2) s = .next (s.committed dst R fl) ∧
          (s.AllMasked → exec (e.1 vl dst src1 src2) s = .next (s.written dst R fl)) ∧
          IsHorizontal e.2.1 (e.2.2 s.cfg e.2.1 s.plainStatus) (s.readX src1) (s.operandB src2) t ∧
          NonLegacyPacked e.2.1 t s 0 vl .plain dst R fl)

/-- ADDSUB, legacy and VEX (R167): even lanes are differences, odd lanes are sums. The call completes when every flag it
reports is masked, which it is when every exception is, and takes the exception when one is not; how the exception is kept is the
model's choice (assumption log 7). -/
def Obligations.AddSubResult : Prop :=
  (∀ e ∈ ([(.addsubps, .f32), (.addsubpd, .f64)] : List ((VReg → Src → Instr) × Fmt)),
    ∀ (s : State) (dst : VReg) (src : Src), s.Wf → VReg.low dst = true → src.low = true →
      ∃ (R : VecWord) (fl : FlagSet),
        exec (e.1 dst src) s = .next (s.committed dst R fl) ∧
          (s.AllMasked → exec (e.1 dst src) s = .next (s.written dst R fl)) ∧
          LegacyPacked e.2
            (fun i => (if i % 2 = 0 then subW else addW) s.cfg e.2 s.plainStatus (lane e.2 (s.readX dst) i)
              (lane e.2 (s.operandB src) i))
            s 0 dst R fl) ∧
  (∀ e ∈ ([(.vaddsubps, .f32), (.vaddsubpd, .f64)] : List ((VLen → VReg → VReg → Src → Instr) × Fmt)),
    ∀ (s : State) (vl : VLen) (dst src1 : VReg) (src2 : Src),
      s.Wf → vl ≠ .v512 → VReg.low dst = true → VReg.low src1 = true → src2.low = true →
      ∃ (R : VecWord) (fl : FlagSet),
        exec (e.1 vl dst src1 src2) s = .next (s.committed dst R fl) ∧
          (s.AllMasked → exec (e.1 vl dst src1 src2) s = .next (s.written dst R fl)) ∧
          NonLegacyPacked e.2
            (fun i => (if i % 2 = 0 then subW else addW) s.cfg e.2 s.plainStatus (lane e.2 (s.readX src1) i)
              (lane e.2 (s.operandB src2) i))
            s 0 vl .plain dst R fl)

/-- DPPS and VDPPS (R188, R190 to R192): the masked reduction of each sub-block. The call completes when every flag it
reports is masked, which it is when every exception is, and takes the exception when one is not; how the exception is kept is the
model's choice (assumption log 7). -/
def Obligations.DotProductResult : Prop :=
  (∀ (s : State) (dst : VReg) (src : Src) (imm : BitVec 8),
    s.Wf → VReg.low dst = true → src.low = true →
    ∃ (R : VecWord) (fl : FlagSet),
      exec (.dpps dst src imm) s = .next (s.committed dst R fl) ∧
        (s.AllMasked → exec (.dpps dst src imm) s = .next (s.written dst R fl)) ∧
        LegacyPacked .f32 (dotProduct s.cfg s.plainStatus imm (s.readX dst) (s.operandB src) 0) s 0 dst R fl) ∧
  (∀ (s : State) (vl : VLen) (dst src1 : VReg) (src2 : Src) (imm : BitVec 8),
    s.Wf → vl ≠ .v512 → VReg.low dst = true → VReg.low src1 = true → src2.low = true →
    ∃ (R : VecWord) (fl : FlagSet),
      exec (.vdpps vl dst src1 src2 imm) s = .next (s.committed dst R fl) ∧
        (s.AllMasked → exec (.vdpps vl dst src1 src2 imm) s = .next (s.written dst R fl)) ∧
        NonLegacyPacked .f32
          (fun i => dotProduct s.cfg s.plainStatus imm (s.readX src1) (s.operandB src2) (i / 4) (i % 4)) s 0 vl .plain dst R fl)

/-- RCP and RSQRT, all eight forms (R54, R193 to R203): they complete whatever MXCSR holds, and leave it as it is. -/
def Obligations.ApproximationResult : Prop :=
  (∀ e ∈ ([(.rcpps, rcpLane), (.rsqrtps, rsqrtLane)] : List ((VReg → Src → Instr) × (BitVec 32 → BitVec 32))),
    ∀ (s : State) (dst : VReg) (src : Src), s.Wf → VReg.low dst = true → src.low = true →
      ∃ R : VecWord, exec (e.1 dst src) s = .next (s.written dst R 0) ∧
        LegacyPacked .f32 (fun i => { val := e.2 (lane .f32 (s.operandB src) i), flags := 0 }) s 0 dst R 0) ∧
  (∀ e ∈ ([(.rcpss, rcpLane), (.rsqrtss, rsqrtLane)] : List ((VReg → Src → Instr) × (BitVec 32 → BitVec 32))),
    ∀ (s : State) (dst : VReg) (src : Src), s.Wf → VReg.low dst = true → src.low = true →
      ∃ R : VecWord, exec (e.1 dst src) s = .next (s.written dst R 0) ∧
        LegacyScalar .f32 { val := e.2 (lane .f32 (s.operandB src) 0), flags := 0 } s 0 dst R 0) ∧
  (∀ e ∈ ([(.vrcpps, rcpLane), (.vrsqrtps, rsqrtLane)] : List ((VLen → VReg → Src → Instr) × (BitVec 32 → BitVec 32))),
    ∀ (s : State) (vl : VLen) (dst : VReg) (src : Src),
      s.Wf → vl ≠ .v512 → VReg.low dst = true → src.low = true →
      ∃ R : VecWord, exec (e.1 vl dst src) s = .next (s.written dst R 0) ∧
        NonLegacyPacked .f32 (fun i => { val := e.2 (lane .f32 (s.operandB src) i), flags := 0 }) s 0 vl .plain dst R 0) ∧
  (∀ e ∈ ([(.vrcpss, rcpLane), (.vrsqrtss, rsqrtLane)] : List ((VReg → VReg → Src → Instr) × (BitVec 32 → BitVec 32))),
    ∀ (s : State) (dst src1 : VReg) (src2 : Src),
      s.Wf → VReg.low dst = true → VReg.low src1 = true → src2.low = true →
      ∃ R : VecWord, exec (e.1 dst src1 src2) s = .next (s.written dst R 0) ∧
        NonLegacyScalar .f32 { val := e.2 (lane .f32 (s.operandB src2) 0), flags := 0 } s 0 .plain dst src1 R 0)

/-- VTESTPS and VTESTPD (R93, R204, R205): ZF and CF from the sign bits of the active lanes, the other four flags 0, no register
and no bit of MXCSR written, whatever MXCSR holds. -/
def Obligations.SignTestResult : Prop :=
  ∀ e ∈ ([(.vtestps, .f32), (.vtestpd, .f64)] : List ((VLen → VReg → Src → Instr) × Fmt)),
    ∀ (s : State) (vl : VLen) (src1 : VReg) (src2 : Src), vl ≠ .v512 → VReg.low src1 = true → src2.low = true →
      ∃ zf cf : Bool,
        exec (e.1 vl src1 src2) s =
            .next { s with
                    cond := { zf := zf, cf := cf, oflag := false, sf := false, af := false, pf := false }
                    inputs := s.inputs.tail } ∧
          (zf = true ↔ ∀ i < VLen.lanes e.2 vl,
            ¬((lane e.2 (s.readX src1) i).msb = true ∧ (lane e.2 (s.operandB src2) i).msb = true)) ∧
          (cf = true ↔ ∀ i < VLen.lanes e.2 vl,
            ¬((lane e.2 (s.readX src1) i).msb = false ∧ (lane e.2 (s.operandB src2) i).msb = true))

/-! ### The exception -/

/-- R211, R212 of the legacy forms, whatever the masks: the call completes when every flag it reports is masked, and takes the
exception when one is not. How the exception is kept, on the list `traps` with its call taken from the inputs, is the model's
choice (assumption log 7). -/
def Obligations.LegacyUnmaskedFlagFaults : Prop :=
  (∀ (imm : BitVec 8), ∀ e ∈ legacyPackedForms imm, ∀ (s : State) (dst : VReg) (src : Src),
    s.Wf → VReg.low dst = true → src.low = true →
    ∃ (R : VecWord) (fl : FlagSet),
      exec (e.1 dst src) s = .next (if fl &&& ~~~s.masks = 0 then s.written dst R fl else s.trapped fl) ∧
        LegacyPacked e.2.1
          (fun i => e.2.2 s.cfg e.2.1 s.plainStatus (lane e.2.1 (s.readX dst) i) (lane e.2.1 (s.operandB src) i)) s 0 dst R fl) ∧
  (∀ (imm : BitVec 8), ∀ e ∈ legacyScalarForms imm, ∀ (s : State) (dst : VReg) (src : Src),
    s.Wf → VReg.low dst = true → src.low = true →
    ∃ (R : VecWord) (fl : FlagSet),
      exec (e.1 dst src) s = .next (if fl &&& ~~~s.masks = 0 then s.written dst R fl else s.trapped fl) ∧
        LegacyScalar e.2.1
          (e.2.2 s.cfg e.2.1 s.plainStatus (lane e.2.1 (s.readX dst) 0) (lane e.2.1 (s.operandB src) 0)) s 0 dst R fl)

/-- R211, R212 of the EVEX forms, whatever the masks; how the exception is kept is the model's choice (assumption log 7). -/
def Obligations.EvexUnmaskedFlagFaults : Prop :=
  (∀ e ∈ evexPackedForms, ∀ (s : State) (vl : VLen) (ev : Evex) (dst src1 : VReg) (src2 : Src),
    s.Wf → (e.1 vl ev dst src1 src2).wellFormed = true → (e.1 vl ev dst src1 src2).fits s.cfg = true →
    ∃ (R : VecWord) (fl : FlagSet),
      exec (e.1 vl ev dst src1 src2) s = .next (if fl &&& ~~~s.masks = 0 then s.written dst R fl else s.trapped fl) ∧
        NonLegacyPacked e.2.1
          (fun i => e.2.2 s.cfg e.2.1 (s.evexStatus ev) (lane e.2.1 (s.readX src1) i) (lane e.2.1 (s.operandB src2) i))
          s (s.evexStatus ev).suppress vl ev dst R fl) ∧
  (∀ e ∈ evexScalarForms, ∀ (s : State) (ev : Evex) (dst src1 : VReg) (src2 : Src),
    s.Wf → (e.1 ev dst src1 src2).wellFormed = true → (e.1 ev dst src1 src2).fits s.cfg = true →
    ∃ (R : VecWord) (fl : FlagSet),
      exec (e.1 ev dst src1 src2) s = .next (if fl &&& ~~~s.masks = 0 then s.written dst R fl else s.trapped fl) ∧
        NonLegacyScalar e.2.1
          (e.2.2 s.cfg e.2.1 (s.evexStatus ev) (lane e.2.1 (s.readX src1) 0) (lane e.2.1 (s.operandB src2) 0))
          s (s.evexStatus ev).suppress ev dst src1 R fl)

/-- R53, R56, R211: an EVEX form with a rounding override or SAE reports nothing, so it takes no exception and leaves MXCSR as it is,
whatever the masks. -/
def Obligations.SuppressedCallNeverFaults : Prop :=
  (∀ e ∈ evexPackedForms.map Prod.fst ++ [.vscalefps, .vscalefpd], ∀ (s t : State) (vl : VLen) (ev : Evex) (dst src1 : VReg) (src2 : Src),
    ev.rc.isSome = true ∨ ev.sae = true → exec (e vl ev dst src1 src2) s = .next t →
    t.mxcsr = s.mxcsr ∧ t.traps = s.traps) ∧
  (∀ e ∈ evexScalarForms.map Prod.fst ++ [.vscalefss, .vscalefsd], ∀ (s t : State) (ev : Evex) (dst src1 : VReg) (src2 : Src),
    ev.rc.isSome = true ∨ ev.sae = true → exec (e ev dst src1 src2) s = .next t →
    t.mxcsr = s.mxcsr ∧ t.traps = s.traps)

/-- R216: after a call that faulted, the handler's return sends that same call again, on the state the handler left; MXCSR,
changed by the handler, decides anew. The stack of exceptions, and that the return brings the memory operand of the new call (R14), are
the model's (assumption log 7). -/
def Obligations.HandlerReturnSendsCallAgain : Prop :=
  ∀ (i : Instr) (s t u : State) (w : BitVec 64) (m m' : VecWord) (rest : List CoreInput),
    s.inputs = .call w m :: rest → decode s.cfg w = .ok i → step s = .next t → t.traps ≠ s.traps →
    u.traps = t.traps → u.cfg = s.cfg → u.inputs = .handlerReturn m' :: rest →
    ∃ v, step u = .next v ∧ v.inputs = .call w m' :: rest ∧ v.traps = s.traps ∧ v.mxcsr = u.mxcsr ∧ v.x = u.x ∧ v.k = u.k ∧
      step v = exec i v

/-! ### The core's actions -/

/-- R226: what power-on RESET leaves, as a step and as the first state, and what INIT leaves. -/
def Obligations.ResetAndInitValues : Prop :=
  (∀ (s : State) (rest : List CoreInput), s.inputs = .powerOn :: rest →
    ∃ t, step s = .next t ∧ t.mxcsr = 0x00001F80 ∧ (∀ r, t.readX r = VecWord.zero) ∧ (∀ r, t.readK r = 0) ∧
      t.cond = ⟨false, false, false, false, false, false⟩ ∧ t.osxmmexcpt = false ∧ t.cfg = s.cfg) ∧
  (∀ (s : State) (rest : List CoreInput), s.inputs = .init :: rest →
    ∃ t, step s = .next t ∧ t.mxcsr = s.mxcsr ∧ (∀ r, t.readX r = s.readX r) ∧ (∀ r, t.readK r = s.readK r) ∧
      t.cond = ⟨false, false, false, false, false, false⟩ ∧ t.osxmmexcpt = false ∧ t.cfg = s.cfg) ∧
  (∀ p, (State.resetWith p).mxcsr = 0x00001F80 ∧ (∀ r, (State.resetWith p).readX r = VecWord.zero) ∧
    (∀ r, (State.resetWith p).readK r = 0) ∧ (State.resetWith p).osxmmexcpt = false ∧
    (State.resetWith p).cond = ⟨false, false, false, false, false, false⟩)

/-- R21, R14, R20: the core's writes. A write of MXCSR with bits 31:16 zero is what the register then holds, one with a 1 there
faults; a register written by index reads back as the value it was given, and no other register changes; CR4.OSXMMEXCPT
and the arithmetic flags take what is written, and nothing else changes. The model's choices in it: that the writes are inputs (assumption
log 4), the fault's form (log 8), that all 64 bits of a mask register are held (log 3: the spec names bits 15:0), that DAZ can be set
(log 12), that the arithmetic flags are six (log 11). -/
def Obligations.CoreWrites : Prop :=
  (∀ (s : State) (v : BitVec 32) (rest : List CoreInput), s.inputs = .writeMxcsr v :: rest →
    if v.toNat < 65536 then step s = .next { s with mxcsr := v, inputs := rest } else step s = .fault .mxcsrReservedBits) ∧
  (∀ (s : State) (r : VReg) (v : VecWord) (rest : List CoreInput), s.inputs = .writeX r v :: rest →
    s.cfg.hasReg r = true → fitsWidth s.cfg v = true →
    ∃ t, step s = .next t ∧ t.readX r = v ∧ (∀ q, q ≠ r → t.readX q = s.readX q) ∧ t.mxcsr = s.mxcsr ∧ t.k = s.k) ∧
  (∀ (s : State) (r : KReg) (v : BitVec 64) (rest : List CoreInput), s.inputs = .writeK r v :: rest →
    ∃ t, step s = .next t ∧ t.readK r = v ∧ (∀ q, q ≠ r → t.readK q = s.readK q) ∧ t.mxcsr = s.mxcsr ∧ t.x = s.x) ∧
  (∀ (s : State) (b : Bool) (rest : List CoreInput), s.inputs = .writeOsxmmexcpt b :: rest →
    step s = .next { s with osxmmexcpt := b, inputs := rest }) ∧
  (∀ (s : State) (c : CondFlags) (rest : List CoreInput), s.inputs = .writeCond c :: rest →
    step s = .next { s with cond := c, inputs := rest })

/-! ### What a call depends on -/

/-- R87: a lane the mask disables is not computed: operand values that agree on the enabled lanes give the same register and the
same MXCSR, in the packed EVEX forms of two operands. -/
def Obligations.DisabledLanesDoNotMatter : Prop :=
  ∀ e ∈ evexPackedForms, ∀ (s s' t t' : State) (vl : VLen) (ev : Evex) (dst src1 src2 : VReg),
    dst ≠ src1 → dst ≠ src2 → s'.cfg = s.cfg → s'.mxcsr = s.mxcsr → s'.k = s.k → s'.readX dst = s.readX dst →
    (∀ i < VLen.lanes e.2.1 vl, s.laneEnabled ev i = true →
      lane e.2.1 (s'.readX src1) i = lane e.2.1 (s.readX src1) i ∧ lane e.2.1 (s'.readX src2) i = lane e.2.1 (s.readX src2) i) →
    exec (e.1 vl ev dst src1 (.reg src2)) s = .next t → exec (e.1 vl ev dst src1 (.reg src2)) s' = .next t' →
    t'.readX dst = t.readX dst ∧ t'.mxcsr = t.mxcsr

/-- R14, R90: a scalar form reads lane 0 of operand B alone; the rest of a memory operand may be any value. -/
def Obligations.ScalarReadsLaneZeroOfMemory : Prop :=
  ∀ e ∈ evexScalarForms, ∀ (s : State) (w w' : BitVec 64) (m m' : VecWord) (rest : List CoreInput) (ev : Evex)
      (dst src1 : VReg) (t t' : State),
    lane e.2.1 m 0 = lane e.2.1 m' 0 →
    exec (e.1 ev dst src1 .mem) { s with inputs := .call w m :: rest } = .next t →
    exec (e.1 ev dst src1 .mem) { s with inputs := .call w' m' :: rest } = .next t' →
    t'.x = t.x ∧ t'.mxcsr = t.mxcsr

/-- The non-legacy forms that work on sub-blocks (R86). -/
def subBlockForms (imm : BitVec 8) : List (VLen → VReg → VReg → Src → Instr) :=
  [.vhaddps, .vhaddpd, .vhsubps, .vhsubpd, .vaddsubps, .vaddsubpd, fun vl d a b => .vdpps vl d a b imm]

/-- The legacy forms that work on sub-blocks, of which they have one (R86). -/
def legacySubBlockForms (imm : BitVec 8) : List (VReg → Src → Instr) :=
  [.haddps, .haddpd, .hsubps, .hsubpd, .addsubps, .addsubpd, fun d b => .dpps d b imm]

/-- R86, R190: no lane of a sub-block depends on another sub-block: HADD, HSUB, ADDSUB and DP, every form, on operands that agree on
a sub-block give destinations that agree on it. -/
def Obligations.SubBlocksAreIndependent : Prop :=
  (∀ (imm : BitVec 8), ∀ e ∈ subBlockForms imm, ∀ (s s' t t' : State) (vl : VLen) (dst src1 : VReg) (src2 : Src) (j : Nat),
    s.AllMasked → s'.cfg = s.cfg → s'.mxcsr = s.mxcsr →
    (s'.readX src1).block j = (s.readX src1).block j → (s'.operandB src2).block j = (s.operandB src2).block j →
    exec (e vl dst src1 src2) s = .next t → exec (e vl dst src1 src2) s' = .next t' →
    (t'.readX dst).block j = (t.readX dst).block j) ∧
  (∀ (imm : BitVec 8), ∀ e ∈ legacySubBlockForms imm, ∀ (s s' t t' : State) (dst : VReg) (src : Src) (j : Nat),
    s.AllMasked → s'.cfg = s.cfg → s'.mxcsr = s.mxcsr →
    (s'.readX dst).block j = (s.readX dst).block j → (s'.operandB src).block j = (s.operandB src).block j →
    exec (e dst src) s = .next t → exec (e dst src) s' = .next t' →
    (t'.readX dst).block j = (t.readX dst).block j)

/-! ### The lane primitives -/

/-- R59, R60: the default NaN of each format, and what quieting does to a NaN. -/
def Obligations.DefaultAndQuietNaN : Prop :=
  defaultNaN .f32 = 0xFFC00000#32 ∧ defaultNaN .f64 = 0xFFF8000000000000#64 ∧
    ∀ (f : Fmt) (x : BitVec f.w), isNaN f x = true →
      isQNaN f (quiet f x) = true ∧ (∀ j, j ≠ f.p - 2 → (quiet f x).getLsbD j = x.getLsbD j) ∧
        (isQNaN f x = true → quiet f x = x)

/-- R68: in an add, subtract, multiply or divide, the first NaN operand comes back quieted, and IE alone is set, by an SNaN. SCALEF
too, but that of a QNaN by an infinity it gives the free value `d` where the parameter says so (R135). -/
def Obligations.ArithmeticOfNaN : Prop :=
  (∀ op ∈ ([addW, subW, mulW, divW] : List Primitive), ∀ (p : Params) (f : Fmt) (st : Status) (a b : BitVec f.w),
    isNaN f a = true ∨ isNaN f b = true →
    (op p f st a b).val = (if isNaN f a then quiet f a else quiet f b) ∧
      (op p f st a b).flags = (if isSNaN f a || isSNaN f b then flagIE else 0)) ∧
  (∀ (d : BitVec 64) (p : Params) (f : Fmt) (st : Status) (a b : BitVec f.w), isNaN f a = true ∨ isNaN f b = true →
    (scalefW d p f st a b).val =
        (if isQNaN f a = true ∧ isInf f b = true ∧ p.scalefQnanInf = .draw then d.setWidth f.w
         else if isNaN f a then quiet f a else quiet f b) ∧
      (scalefW d p f st a b).flags = (if isSNaN f a || isSNaN f b then flagIE else 0))

/-- R69: of one operand, a square root or a rounding. -/
def Obligations.UnaryOfNaN : Prop :=
  ∀ op ∈ ([unary sqrtW, unary roundW] : List Primitive), ∀ (p : Params) (f : Fmt) (st : Status) (a b : BitVec f.w),
    isNaN f b = true →
    (op p f st a b).val = quiet f b ∧ (op p f st a b).flags = (if isSNaN f b then flagIE else 0)

/-- R70: the invalid operations on operands that are no NaN: the default NaN, with IE. -/
def Obligations.InvalidOperations : Prop :=
  ∀ (p : Params) (f : Fmt) (st : Status) (a b : BitVec f.w),
    (isInf f a = true → isInf f b = true → sign f a ≠ sign f b → addW p f st a b = { val := defaultNaN f, flags := flagIE }) ∧
    (isInf f a = true → isInf f b = true → sign f a = sign f b → subW p f st a b = { val := defaultNaN f, flags := flagIE }) ∧
    (isZero f a = true → isInf f b = true → mulW p f st a b = { val := defaultNaN f, flags := flagIE }) ∧
    (isInf f a = true → isZero f b = true → mulW p f st a b = { val := defaultNaN f, flags := flagIE }) ∧
    (isZero f a = true → isZero f b = true → divW p f st a b = { val := defaultNaN f, flags := flagIE }) ∧
    (isInf f a = true → isInf f b = true → divW p f st a b = { val := defaultNaN f, flags := flagIE }) ∧
    (isNaN f b = false → isZero f b = false → sign f b = true → (st.daz = false ∨ isDenormal f b = false) →
      (sqrtW p f st b).val = defaultNaN f ∧ (sqrtW p f st b).flags.getLsbD 0 = true) ∧
    (∀ d, isZero f a = true → isInf f b = true → sign f b = false →
      scalefW d p f st a b = { val := defaultNaN f, flags := flagIE }) ∧
    (∀ d, isInf f a = true → isInf f b = true → sign f b = true →
      scalefW d p f st a b = { val := defaultNaN f, flags := flagIE })

/-- R65: the sign of an exact zero: of a sum and a difference, of a product and a quotient, of a square root. -/
def Obligations.SignOfExactZero : Prop :=
  ∀ (p : Params) (f : Fmt) (st : Status) (a b : BitVec f.w), isFinite f a = true → isFinite f b = true → st.daz = false →
    (realOf f a + realOf f b = 0 →
      (addW p f st a b).val =
        zeroOf f (if isZero f a && isZero f b && (sign f a == sign f b) then sign f a else st.rc == .rd)) ∧
    (realOf f a - realOf f b = 0 →
      (subW p f st a b).val =
        zeroOf f (if isZero f a && isZero f b && (sign f a != sign f b) then sign f a else st.rc == .rd)) ∧
    (realOf f a * realOf f b = 0 → (mulW p f st a b).val = zeroOf f (sign f a != sign f b)) ∧
    (isZero f a = true → isZero f b = false → (divW p f st a b).val = zeroOf f (sign f a != sign f b)) ∧
    (isZero f b = true → sqrtW p f st b = { val := b, flags := 0 })

/-- R66: with DAZ, a denormal operand of an arithmetic, minimum, maximum, compare, square root or SCALEF primitive counts as the zero of
its sign, from the first. -/
def Obligations.DenormalsAreZeros : Prop :=
  ∀ (c : BitVec 5) (d : BitVec 64), ∀ op ∈ ([addW, subW, mulW, divW, minW, maxW, cmpW c, unary sqrtW, scalefW d] : List Primitive),
    ∀ (p : Params) (f : Fmt) (st : Status) (a b : BitVec f.w), st.daz = true →
      op p f st a b =
        op p f st (if isDenormal f a then zeroOf f (sign f a) else a) (if isDenormal f b then zeroOf f (sign f b) else b) ∧
      (op p f st a b).flags.getLsbD 1 = false

/-- R67: without DAZ, DE is set exactly by a denormal operand beside no NaN, in an add, subtract, multiply, minimum, maximum and
compare; in SCALEF, by a denormal operand B only where the parameter says so (R135). -/
def Obligations.DenormalFlag : Prop :=
  (∀ (c : BitVec 5), ∀ op ∈ ([addW, subW, mulW, minW, maxW, cmpW c] : List Primitive),
    ∀ (p : Params) (f : Fmt) (st : Status) (a b : BitVec f.w), st.daz = false →
      ((op p f st a b).flags.getLsbD 1 = true ↔
        (isDenormal f a = true ∨ isDenormal f b = true) ∧ isNaN f a = false ∧ isNaN f b = false)) ∧
  (∀ (d : BitVec 64) (p : Params) (f : Fmt) (st : Status) (a b : BitVec f.w), st.daz = false →
    ((scalefW d p f st a b).flags.getLsbD 1 = true ↔
      (isDenormal f a = true ∨ (isDenormal f b = true ∧ p.scalefDeB = true)) ∧ isNaN f a = false ∧ isNaN f b = false))

/-- R209: which flags a primitive can set at all. -/
def Obligations.FlagsEachPrimitiveSets : Prop :=
  ∀ (c : BitVec 5) (d : BitVec 64) (p : Params) (f : Fmt) (st : Status) (a b : BitVec f.w),
    (∀ op ∈ ([addW, subW, mulW, scalefW d] : List Primitive), (op p f st a b).flags &&& flagZE = 0) ∧
    (∀ op ∈ ([minW, maxW, cmpW c] : List Primitive), (op p f st a b).flags &&& 0b111100 = 0) ∧
    (sqrtW p f st b).flags &&& 0b011100 = 0 ∧
    (roundW p f st b).flags &&& 0b011110 = 0

/-- R98: where no operand is a NaN, a difference is the sum with the sign of the second operand inverted. -/
def Obligations.SubtractIsAddOfNegated : Prop :=
  ∀ (p : Params) (f : Fmt) (st : Status) (a b : BitVec f.w), isNaN f a = false → isNaN f b = false →
    subW p f st a b = addW p f st a (negate f b)

/-- R100: a finite number that is not zero over a zero: an infinity, the sign the operands' exclusive or, with ZE, and DE beside it
for a denormal where the parameter says so; an infinity over a zero sets nothing, which is the
model's reading of R100 by its remark, R209 and vector D7 (assumption log 9). -/
def Obligations.DivideByZero : Prop :=
  ∀ (p : Params) (f : Fmt) (st : Status) (a b : BitVec f.w), isZero f b = true → st.daz = false →
    (isFinite f a = true → isZero f a = false →
      divW p f st a b =
        { val := infOf f (sign f a != sign f b)
          flags := if isDenormal f a && p.deWithZe then flagZE ||| flagDE else flagZE }) ∧
    (isInf f a = true → divW p f st a b = { val := infOf f (sign f a != sign f b), flags := 0 })

/-- R133: minimum and maximum: operand B with IE beside a NaN, else the smaller or the larger real value, operand B where neither
is, and DE alone by a denormal. -/
def Obligations.MinimumAndMaximum : Prop :=
  ∀ (p : Params) (f : Fmt) (st : Status) (x y : BitVec f.w),
    let a := if st.daz && isDenormal f x then zeroOf f (sign f x) else x
    let b := if st.daz && isDenormal f y then zeroOf f (sign f y) else y
    (isNaN f a = true ∨ isNaN f b = true →
      minW p f st x y = { val := b, flags := flagIE } ∧ maxW p f st x y = { val := b, flags := flagIE }) ∧
    (isNaN f a = false → isNaN f b = false →
      (LessThan f a b → (minW p f st x y).val = a) ∧ (¬LessThan f a b → (minW p f st x y).val = b) ∧
      (LessThan f b a → (maxW p f st x y).val = a) ∧ (¬LessThan f b a → (maxW p f st x y).val = b) ∧
      (minW p f st x y).flags = (if isDenormal f a || isDenormal f b then flagDE else 0) ∧
      (maxW p f st x y).flags = (if isDenormal f a || isDenormal f b then flagDE else 0))

/-- The names of the predicates in the order of their codes, each with its results for greater, less, equal, unordered, and
whether it signals (R73). -/
def predicateRows : List (Bool × Bool × Bool × Bool × Bool) :=
  [(false, false, true, false, false), (false, true, false, false, true), (false, true, true, false, true),
   (false, false, false, true, false), (true, true, false, true, false), (true, false, true, true, true),
   (true, false, false, true, true), (true, true, true, false, false), (false, false, true, true, false),
   (false, true, false, true, true), (false, true, true, true, true), (false, false, false, false, false),
   (true, true, false, false, false), (true, false, true, false, true), (true, false, false, false, true),
   (true, true, true, true, false)]

/-- R73, R75: one lane of a compare, for every code: ones or zeros by the relation of the operands' real values, IE by an SNaN or by
a NaN under a signalling predicate, DE by a denormal beside no NaN, no other flag. -/
def Obligations.CompareLane : Prop :=
  ∀ (c : BitVec 5) (p : Params) (f : Fmt) (st : Status) (x y : BitVec f.w),
    let a := if st.daz && isDenormal f x then zeroOf f (sign f x) else x
    let b := if st.daz && isDenormal f y then zeroOf f (sign f y) else y
    let row := predicateRows.getD (c.toNat % 16) (false, false, false, false, false)
    let signals : Bool := row.2.2.2.2 != decide (16 ≤ c.toNat)
    let mask (t : Bool) : BitVec f.w := if t then BitVec.allOnes f.w else 0
    (isNaN f a = true ∨ isNaN f b = true →
      cmpW c p f st x y =
        { val := mask row.2.2.2.1, flags := if isSNaN f a || isSNaN f b || signals then flagIE else 0 }) ∧
    (isNaN f a = false → isNaN f b = false →
      (LessThan f b a → (cmpW c p f st x y).val = mask row.1) ∧
      (LessThan f a b → (cmpW c p f st x y).val = mask row.2.1) ∧
      (¬LessThan f a b → ¬LessThan f b a → (cmpW c p f st x y).val = mask row.2.2.1) ∧
      (cmpW c p f st x y).flags = (if isDenormal f a || isDenormal f b then flagDE else 0))

/-- R76: codes 16 apart give the same lane; their flags differ in IE alone, and only on unordered operands without an SNaN. -/
def Obligations.ComparePairsAgree : Prop :=
  ∀ (c : BitVec 5) (p : Params) (f : Fmt) (st : Status) (a b : BitVec f.w), c.toNat < 16 →
    (cmpW c p f st a b).val = (cmpW (c + 16) p f st a b).val ∧
      (cmpW c p f st a b).flags ||| flagIE = (cmpW (c + 16) p f st a b).flags ||| flagIE ∧
      ((cmpW c p f st a b).flags ≠ (cmpW (c + 16) p f st a b).flags ↔
        (isNaN f a = true ∨ isNaN f b = true) ∧ isSNaN f a = false ∧ isSNaN f b = false)

/-- R164: rounding a finite number to an integral value: the integer that the mode gives, the sign of the operand kept on a zero,
PE exactly when the number is not an integer. -/
def Obligations.RoundsToIntegral : Prop :=
  ∀ (p : Params) (f : Fmt) (st : Status) (b : BitVec f.w), isFinite f b = true → p.roundDaz = false →
    isFinite f (roundW p f st b).val = true ∧
      realOf f (roundW p f st b).val = roundedTo st.rc (realOf f b) ∧
      sign f (roundW p f st b).val = sign f b ∧
      (roundW p f st b).flags = (if realOf f b = (⌊realOf f b⌋ : ℚ) then 0 else flagPE)

/-- R135: SCALEF of a normal number by a finite one, where the product with the power of two is a normal number again: exactly that
product, with no flag. Its special cases that are not invalid, after DAZ: by `+inf` an infinity, by `-inf` a zero, of the sign of
operand A; an infinity or a zero by a finite number is itself; with DE by a denormal operand A, and by a denormal operand B where the
parameter says so. -/
def Obligations.ScalefIsExactInRange : Prop :=
  (∀ (d : BitVec 64) (p : Params) (f : Fmt) (st : Status) (a b : BitVec f.w),
    isFinite f a = true → isZero f a = false → isDenormal f a = false → isFinite f b = true → isDenormal f b = false →
    0 < (expField f a : ℤ) + ⌊realOf f b⌋ → (expField f a : ℤ) + ⌊realOf f b⌋ < f.expOnes →
    isFinite f (scalefW d p f st a b).val = true ∧
      realOf f (scalefW d p f st a b).val = realOf f a * (2 : ℚ) ^ ⌊realOf f b⌋ ∧
      (scalefW d p f st a b).flags = 0) ∧
  (∀ (d : BitVec 64) (p : Params) (f : Fmt) (st : Status) (x y : BitVec f.w),
    let a := if st.daz && isDenormal f x then zeroOf f (sign f x) else x
    let b := if st.daz && isDenormal f y then zeroOf f (sign f y) else y
    let de := if isDenormal f a || (isDenormal f b && p.scalefDeB) then flagDE else 0
    isNaN f a = false →
      (isInf f b = true → sign f b = false → isZero f a = false →
        scalefW d p f st x y = { val := infOf f (sign f a), flags := de }) ∧
      (isInf f b = true → sign f b = true → isInf f a = false →
        scalefW d p f st x y = { val := zeroOf f (sign f a), flags := de }) ∧
      (isFinite f b = true → isInf f a = true ∨ isZero f a = true → scalefW d p f st x y = { val := a, flags := de }))

/-- R189 (2), (3), (5): the masked reduction with no lane to write is zero, with no lane to multiply it sets no flag and is zero, and
the operands of unselected products do not matter. -/
def Obligations.DotProductMasks : Prop :=
  ∀ (imm : BitVec 8) (p : Params) (st : Status) (a b a' b' : VecWord) (i : Nat),
    (imm.extractLsb' 0 4 = 0 → (dpLanes imm p st a b i).val = 0) ∧
    (imm.extractLsb' 4 4 = 0 → dpLanes imm p st a b i = { val := 0, flags := 0 }) ∧
    ((∀ l < 4, imm.getLsbD (4 + l) = true →
        lane .f32 a' (4 * (i / 4) + l) = lane .f32 a (4 * (i / 4) + l) ∧
        lane .f32 b' (4 * (i / 4) + l) = lane .f32 b (4 * (i / 4) + l)) →
      dpLanes imm p st a' b' i = dpLanes imm p st a b i)

/-- R194: the reciprocal: its special cases, and the bound on a normal number: `+0` where the result would be tiny, else within
`1.5 * 2^-12` of the reciprocal, the operand's sign carried over. -/
def Obligations.ReciprocalBound : Prop :=
  ∀ b : BitVec 32,
    (isNaN .f32 b = true → rcpLane b = quiet .f32 b) ∧
    (isZero .f32 b = true ∨ isDenormal .f32 b = true → rcpLane b = infOf .f32 (sign .f32 b)) ∧
    (isInf .f32 b = true → rcpLane b = zeroOf .f32 (sign .f32 b)) ∧
    (isNaN .f32 b = false → rcpLane (negate .f32 b) = negate .f32 (rcpLane b)) ∧
    (isFinite .f32 b = true → isZero .f32 b = false → isDenormal .f32 b = false →
      let x := |realOf .f32 b|
      let r := |realOf .f32 (rcpLane b)|
      sign .f32 (rcpLane b) = sign .f32 b ∧ isFinite .f32 (rcpLane b) = true ∧ isDenormal .f32 (rcpLane b) = false ∧
        (isZero .f32 (rcpLane b) = false → |r - 1 / x| ≤ 3 / 2 * (2 : ℚ) ^ (-12 : ℤ) * (1 / x)) ∧
        (isZero .f32 (rcpLane b) = true → 1 / x < (2 : ℚ) ^ (-126 : ℤ) * (1 + 3 / 2 * (2 : ℚ) ^ (-12 : ℤ))) ∧
        (1 / x < (2 : ℚ) ^ (-126 : ℤ) * (1 - 3 / 2 * (2 : ℚ) ^ (-12 : ℤ)) → isZero .f32 (rcpLane b) = true))

/-- R195: the reciprocal square root: its special cases, and the bound on a positive normal number, which is
`|r - 1/sqrt(x)| <= 1.5 * 2^-12 / sqrt(x)` multiplied through by `sqrt(x)` and squared. -/
def Obligations.ReciprocalRootBound : Prop :=
  ∀ b : BitVec 32,
    (isNaN .f32 b = true → rsqrtLane b = quiet .f32 b) ∧
    (isZero .f32 b = true ∨ isDenormal .f32 b = true → rsqrtLane b = infOf .f32 (sign .f32 b)) ∧
    (isInf .f32 b = true → sign .f32 b = false → rsqrtLane b = 0#32) ∧
    (isNaN .f32 b = false → isZero .f32 b = false → isDenormal .f32 b = false → sign .f32 b = true →
      rsqrtLane b = 0xFFC00000#32) ∧
    (isFinite .f32 b = true → isZero .f32 b = false → isDenormal .f32 b = false → sign .f32 b = false →
      let x := realOf .f32 b
      let r := realOf .f32 (rsqrtLane b)
      let u := 3 / 2 * (2 : ℚ) ^ (-12 : ℤ)
      isPosNormal (rsqrtLane b) = true ∧ (1 - u) ^ 2 ≤ r ^ 2 * x ∧ r ^ 2 * x ≤ (1 + u) ^ 2)

/-! ### Rounding -/

/-- R61: `rint` of a rational number under each mode, and the modes' encoding. -/
def Obligations.RoundingModes : Prop :=
  (RoundMode.ofBits 0 = .rn ∧ RoundMode.ofBits 1 = .rd ∧ RoundMode.ofBits 2 = .ru ∧ RoundMode.ofBits 3 = .rz) ∧
  ∀ (n d : Nat) (e k : ℤ) (m : RoundMode) (s : Bool), 0 < n → 0 < d →
    let q : ℚ := (n : ℚ) / d * (2 : ℚ) ^ (e - k)
    let r := (Mag.ratio n d e).rint k m s
    ((if s then -(r.1 : ℤ) else r.1) = roundedTo m (if s then -q else q)) ∧ (r.2 = true ↔ (r.1 : ℚ) = q)

/-- R62, R63: when a rounding overflows: exactly when the magnitude, rounded with no bound on the exponent, reaches `2^(emax+1)`, so
never up to the largest finite number and always from `2^(emax+1)` on. What an overflow gives: OE; PE when it is masked or inexact; the
infinity or the largest finite number that the mode gives. -/
def Obligations.OverflowResult : Prop :=
  (∀ (f : Fmt) (st : Status) (s exact : Bool),
    (overflow f st s exact).flags = flagOE ||| (if st.masks.getLsbD 3 = true ∨ exact = false then flagPE else 0) ∧
      (overflow f st s exact).val =
        (match st.rc, s with
         | .rn, _ => infOf f s
         | .rz, _ => maxFiniteOf f s
         | .ru, false => infOf f false
         | .ru, true => maxFiniteOf f true
         | .rd, false => maxFiniteOf f false
         | .rd, true => infOf f true) ∧
      maxFiniteOf .f32 s = (if s then 0xFF7FFFFF#32 else 0x7F7FFFFF#32) ∧
      maxFiniteOf .f64 s = (if s then 0xFFEFFFFFFFFFFFFF#64 else 0x7FEFFFFFFFFFFFFF#64)) ∧
  (∀ (p : Params) (f : Fmt) (st : Status) (s : Bool) (n d : Nat) (e : ℤ), 0 < n → 0 < d →
    let v : ℚ := (n : ℚ) / d * (2 : ℚ) ^ e
    let r := roundPack p f st s (.ratio n d e)
    (RoundsUpTo f st.rc s ((2 : ℚ) ^ (f.emax + 1)) v →
      ∃ exact : Bool, r = overflow f st s exact ∧ (exact = true ↔ ∃ (m : ℕ) (k : ℤ), m < 2 ^ f.p ∧ v = m * (2 : ℚ) ^ k)) ∧
    (¬RoundsUpTo f st.rc s ((2 : ℚ) ^ (f.emax + 1)) v → r.flags.getLsbD 3 = false) ∧
    ((2 : ℚ) ^ (f.emax + 1) ≤ v → ∃ exact : Bool, r = overflow f st s exact) ∧
    (v ≤ realOf f (maxFiniteOf f false) → r.flags.getLsbD 3 = false))

/-- R62: a result that neither overflows nor is flushed is correctly rounded to nearest: no finite number is nearer to the exact one,
and of two as near it is the one with the even significand. -/
def Obligations.RoundPackIsNearest : Prop :=
  ∀ (p : Params) (f : Fmt) (st : Status) (s : Bool) (n d : Nat) (e : ℤ), 0 < n → 0 < d →
    st.rc = .rn → st.ftz = false → (roundPack p f st s (.ratio n d e)).flags.getLsbD 3 = false →
    let r := (roundPack p f st s (.ratio n d e)).val
    let x : ℚ := (if s then -1 else 1) * ((n : ℚ) / d * (2 : ℚ) ^ e)
    isFinite f r = true ∧ sign f r = s ∧
      ∀ y : BitVec f.w, isFinite f y = true →
        |realOf f r - x| ≤ |realOf f y - x| ∧
          (|realOf f r - x| = |realOf f y - x| → realOf f y ≠ realOf f r → frac f r % 2 = 0)

/-- R62: under a directed mode, a result that neither overflows nor is flushed is the nearest finite number on that side of the
exact one. -/
def Obligations.RoundPackIsDirected : Prop :=
  ∀ (p : Params) (f : Fmt) (st : Status) (s : Bool) (n d : Nat) (e : ℤ), 0 < n → 0 < d →
    st.ftz = false → (roundPack p f st s (.ratio n d e)).flags.getLsbD 3 = false →
    let r := (roundPack p f st s (.ratio n d e)).val
    let x : ℚ := (if s then -1 else 1) * ((n : ℚ) / d * (2 : ℚ) ^ e)
    isFinite f r = true ∧ sign f r = s ∧
      (st.rc = .rd → realOf f r ≤ x ∧ ∀ y : BitVec f.w, isFinite f y = true → realOf f y ≤ x → realOf f y ≤ realOf f r) ∧
      (st.rc = .ru → x ≤ realOf f r ∧ ∀ y : BitVec f.w, isFinite f y = true → x ≤ realOf f y → realOf f r ≤ realOf f y) ∧
      (st.rc = .rz → |realOf f r| ≤ |x| ∧ ∀ y : BitVec f.w, isFinite f y = true → |realOf f y| ≤ |x| → |realOf f y| ≤ |realOf f r|)

/-- R62, R64: the flags of a rounding that is not flushed and does not overflow: PE exactly when the result is not the exact number,
UE exactly when the result is tiny by the parameter and either inexact or UM is 0, no other; a magnitude that is tiny under both
values of the parameter, in the same case, sets UE. -/
def Obligations.RoundPackFlags : Prop :=
  ∀ (p : Params) (f : Fmt) (st : Status) (s : Bool) (n d : Nat) (e : ℤ), 0 < n → 0 < d →
    st.ftz = false → (roundPack p f st s (.ratio n d e)).flags.getLsbD 3 = false →
    let r := roundPack p f st s (.ratio n d e)
    let v : ℚ := (n : ℚ) / d * (2 : ℚ) ^ e
    let x : ℚ := (if s then -1 else 1) * v
    (r.flags.getLsbD 5 = true ↔ realOf f r.val ≠ x) ∧
      (r.flags.getLsbD 4 = true ↔ Tiny p f st.rc s v ∧ (realOf f r.val ≠ x ∨ st.masks.getLsbD 4 = false)) ∧
      (v ≤ (2 : ℚ) ^ f.emin * (1 - (2 : ℚ) ^ (-(f.p : ℤ))) → realOf f r.val ≠ x ∨ st.masks.getLsbD 4 = false →
        r.flags.getLsbD 4 = true) ∧
      (r.flags.getLsbD 4 = true → v < (2 : ℚ) ^ f.emin) ∧
      r.flags &&& 0b001111 = 0

/-- R64: under FTZ a tiny result is the zero of its sign with UE and PE: under either parameter, every result whose magnitude,
rounded or not, lies below the normal range; a magnitude in the normal range is rounded as without FTZ. -/
def Obligations.FlushToZero : Prop :=
  ∀ (p : Params) (f : Fmt) (st : Status) (s : Bool) (n d : Nat) (e : ℤ), 0 < n → 0 < d → st.ftz = true →
    let v : ℚ := (n : ℚ) / d * (2 : ℚ) ^ e
    (v ≤ (2 : ℚ) ^ f.emin * (1 - (2 : ℚ) ^ (-(f.p : ℤ))) →
      roundPack p f st s (.ratio n d e) = { val := zeroOf f s, flags := flagUE ||| flagPE }) ∧
    ((2 : ℚ) ^ f.emin ≤ v →
      roundPack p f st s (.ratio n d e) = roundPack p f { st with ftz := false } s (.ratio n d e))

/-- R62, R97, R99, R100: the sum, the product and the quotient of finite numbers, to nearest: no finite number is nearer to the exact
one, where nothing overflows. -/
def Obligations.ArithmeticIsCorrectlyRounded : Prop :=
  ∀ (p : Params) (f : Fmt) (st : Status) (a b : BitVec f.w),
    isFinite f a = true → isFinite f b = true → st.daz = false → st.ftz = false → st.rc = .rn →
    ∀ e ∈ ([(addW, realOf f a + realOf f b), (mulW, realOf f a * realOf f b)] ++
        if isZero f b then [] else [(divW, realOf f a / realOf f b)] : List (Primitive × ℚ)),
      (e.1 p f st a b).flags.getLsbD 3 = false →
      isFinite f (e.1 p f st a b).val = true ∧
        ∀ y : BitVec f.w, isFinite f y = true → |realOf f (e.1 p f st a b).val - e.2| ≤ |realOf f y - e.2|

/-- R62, R134: the square root of a positive finite number, to nearest: no finite number is nearer to the exact root. -/
def Obligations.SqrtIsCorrectlyRounded : Prop :=
  ∀ (p : Params) (f : Fmt) (st : Status) (b : BitVec f.w),
    isFinite f b = true → isZero f b = false → sign f b = false → st.daz = false → st.rc = .rn →
    isFinite f (sqrtW p f st b).val = true ∧
      ∀ y : BitVec f.w, isFinite f y = true →
        |((realOf f (sqrtW p f st b).val : ℚ) : ℝ) - Real.sqrt ((realOf f b : ℚ) : ℝ)| ≤
          |((realOf f y : ℚ) : ℝ) - Real.sqrt ((realOf f b : ℚ) : ℝ)|
end

