-- ==== Sys2Proof/Laws/Descriptor.lean ====
section
/-!
SUPPORT. The descriptor word and its fields (R38): each is read back from the other, and the fields of the two forms.
-/

namespace Sys2Proof

/-- A field above the lower part of an appended word. -/
theorem extract_append_above {n m : Nat} (x : BitVec n) (y : BitVec m) {k : Nat} (w : Nat) (h : m ≤ k) :
    (x ++ y).extractLsb' k w = x.extractLsb' (k - m) w := by
  ext i hi
  have h1 : ¬ k + i < m := by omega
  have h2 : k + i - m = k - m + i := by omega
  simp [BitVec.getElem_extractLsb', BitVec.getLsbD_append, h1, h2]

/-- A field within the lower part of an appended word. -/
theorem extract_append_within {n m : Nat} (x : BitVec n) (y : BitVec m) {k w : Nat} (h : k + w ≤ m) :
    (x ++ y).extractLsb' k w = y.extractLsb' k w := by
  ext i hi
  have h1 : k + i < m := by omega
  simp [BitVec.getElem_extractLsb', BitVec.getLsbD_append, h1]

/-- The fields of a word put together from fields (R38). -/
theorem unpack_pack (d : Desc) : unpack (pack d) = d := by
  obtain ⟨op, scalar, dbl, vl, nl, rcv, rcm, sae, kz, ksel, dst, src1, src2, mem, rsv39, imm8, rsv63⟩ := d
  have bit (w : BitVec 64) (k : Nat) : w.getLsbD k = (w.extractLsb' k 1).getLsbD 0 := by simp
  have one (b : Bool) : b = (BitVec.ofBool b).getLsbD 0 := by cases b <;> rfl
  simp only [unpack, Desc.mk.injEq]
  refine ⟨?_, ?_, ?_, ?_, ?_, ?_, ?_, ?_, ?_, ?_, ?_, ?_, ?_, ?_, ?_, ?_, ?_⟩
  all_goals try (rw [bit]; refine Eq.trans (congrArg (fun v : BitVec 1 => v.getLsbD 0) ?_) (one _).symm)
  all_goals
    repeat' first
      | exact BitVec.extractLsb'_eq_self
      | refine (extract_append_above _ _ _ (by decide)).trans ?_
      | refine (extract_append_within _ _ (by decide)).trans ?_

/-- A word put together from its own fields (R38). -/
theorem pack_unpack (w : BitVec 64) : pack (unpack w) = w := by
  have e : unpack (pack (unpack w)) = unpack w := unpack_pack (unpack w)
  have inj : ∀ v : BitVec 64, ∀ i < 64, v.getLsbD i = (
      if i < 6 then (unpack v).op.getLsbD i
      else if i = 6 then (unpack v).scalar else if i = 7 then (unpack v).dbl
      else if i < 10 then (unpack v).vl.getLsbD (i - 8)
      else if i = 10 then (unpack v).nl else if i = 11 then (unpack v).rcv
      else if i < 14 then (unpack v).rcm.getLsbD (i - 12)
      else if i = 14 then (unpack v).sae else if i = 15 then (unpack v).kz
      else if i < 19 then (unpack v).ksel.getLsbD (i - 16)
      else if i < 24 then (unpack v).dst.getLsbD (i - 19)
      else if i < 29 then (unpack v).src1.getLsbD (i - 24)
      else if i < 34 then (unpack v).src2.getLsbD (i - 29)
      else if i = 34 then (unpack v).mem
      else if i < 40 then (unpack v).rsv39.getLsbD (i - 35)
      else if i < 48 then (unpack v).imm8.getLsbD (i - 40)
      else (unpack v).rsv63.getLsbD (i - 48)) := by
    intro v i hi
    simp only [unpack, BitVec.getLsbD_extractLsb']
    interval_cases i <;> simp
  apply BitVec.eq_of_getLsbD_eq
  intro i hi
  rw [inj _ i hi, inj w i hi, e]

/-- A list of tests of which none holds gives no reason. -/
theorem firstReason_eq_none {l : List (Bool × RefuseReason)} (h : ∀ e ∈ l, e.1 = false) : firstReason l = none := by
  induction l with
  | nil => rfl
  | cons e l ih =>
    obtain ⟨b, r⟩ := e
    have hb : b = false := h (b, r) (by simp)
    subst hb
    exact ih fun e he => h e (by simp [he])

/-- An index of one of the first sixteen registers is there whatever NVREG is. -/
theorem hasReg_of_low {p : Params} {r : VReg} (h : VReg.low r = true) : p.hasReg r = true := by
  simp [Params.hasReg, h]

@[simp] theorem Src.low_index {src : Src} (h : src.low = true) : VReg.low src.index = true := by
  cases src with
  | reg r => exact h
  | mem => rfl

@[simp] theorem Params.hasReg_index {p : Params} {src : Src} (h : p.hasSrc src = true) : p.hasReg src.index = true := by
  cases src with
  | reg r => exact h
  | mem => simp [Src.index, Params.hasReg, VReg.low]

@[simp] theorem Src.index_of_isMem {src : Src} (h : src.isMem = true) : src.index = 0 := by
  cases src with
  | reg r => simp [Src.isMem] at h
  | mem => rfl

@[simp] theorem Op.code_beq (o q : Op) : (o.code == q.code) = (o == q) := by cases o <;> cases q <;> rfl

/-- The operations an OP field selects, by the operation. -/
theorem opIn_of_code {d : Desc} {op : Op} (h : d.op = op.code) (ops : List Op) : d.opIn ops = ops.any (· == op) := by
  simp [Desc.opIn, h]

theorem Op.code_le (op : Op) : ¬ 16 < op.code.toNat := by cases op <;> decide

/-- Whether a legacy form of an operation exists, with an immediate only where there is one (R45). -/
def legacyShape (op : Op) (scalar dbl : Bool) : Bool :=
  !([Op.scalef, .test].any (· == op)) && !(scalar && [Op.hadd, .hsub, .addsub, .dp, .test].any (· == op)) &&
    !(dbl && [Op.dp, .rcp, .rsqrt].any (· == op))

/-- A legacy form of the operation exists and its registers are among the first sixteen: it is legal (R45). -/
theorem legal_legacy (p : Params) {op : Op} {scalar dbl : Bool} {dst : VReg} {src : Src} {imm : BitVec 8}
    (hs : legacyShape op scalar dbl = true) (hi : imm = 0 ∨ [Op.round, .cmp, .dp].any (· == op) = true)
    (hd : VReg.low dst = true) (hb : src.low = true) : refuseReason p (.legacy op scalar dbl dst src imm) = none := by
  have h1 := Src.low_index hb
  have h2 : src.isMem = true → src.index = 0 := Src.index_of_isMem
  have h3 := hasReg_of_low (p := p) hd
  have h4 := hasReg_of_low (p := p) h1
  have hop : ∀ ops, (Desc.legacy op scalar dbl dst src imm).opIn ops = ops.any (· == op) := opIn_of_code rfl
  have h5 : [Op.min, .max].any (· == op) = true → [Op.round, .cmp, .dp].any (· == op) = false := by cases op <;> decide
  have h6 : [Op.test].any (· == op) = true → [Op.scalef, .test].any (· == op) = true := by cases op <;> decide
  have h7 := op.code_le
  unfold legacyShape at hs
  apply firstReason_eq_none
  simp only [legalChecks, hop]
  generalize [Op.scalef, .test].any (· == op) = o1 at *
  generalize [Op.hadd, .hsub, .addsub, .dp, .test].any (· == op) = o2 at *
  generalize [Op.dp, .rcp, .rsqrt].any (· == op) = o3 at *
  generalize [Op.round, .cmp, .dp].any (· == op) = o4 at *
  generalize [Op.min, .max].any (· == op) = o5 at *
  generalize [Op.test].any (· == op) = o6 at *
  generalize arithOps.any (· == op) = o7 at *
  generalize unaryOps.any (· == op) = o8 at *
  simp only [List.forall_mem_cons, Desc.legacy, Desc.anyReg, h1, h3, h4, hd]
  clear hop
  cases o1 <;> cases o6 <;> simp_all
  all_goals grind

/-- Whether a non-legacy form of an operation exists with the length and EVEX fields given (R45). -/
def nonLegacyShape (op : Op) (scalar dbl : Bool) (vl : VLen) (ev : Evex) : Bool :=
  !(scalar && (vl != .v128 || [Op.hadd, .hsub, .addsub, .dp, .test].any (· == op))) &&
    !(dbl && [Op.dp, .rcp, .rsqrt].any (· == op)) &&
    (arithOps.any (· == op) || (vl.vex && ev == .plain)) && !([Op.min, .max].any (· == op) && ev.rcv) && ev.maskOk

/-- A non-legacy form of the operation exists and the machine has its length and its registers: it is legal (R45). -/
theorem legal_nonLegacy (p : Params) {op : Op} {scalar dbl : Bool} {vl : VLen} {ev : Evex} {dst src1 : VReg} {src2 : Src}
    {imm : BitVec 8} (hs : nonLegacyShape op scalar dbl vl ev = true)
    (hi : imm = 0 ∨ [Op.round, .cmp, .dp].any (· == op) = true) (hl : p.hasLength vl = true) (hd : p.hasReg dst = true)
    (ha : p.hasReg src1 = true) (hb : p.hasSrc src2 = true)
    (hlow : arithOps.any (· == op) = true ∨ (VReg.low dst = true ∧ VReg.low src1 = true ∧ src2.low = true))
    (hu : unaryOps.any (· == op) = false ∨ scalar = true ∨ src1 = 0) (ht : [Op.test].any (· == op) = false ∨ dst = src1) :
    refuseReason p (.nonLegacy op scalar dbl vl ev dst src1 src2 imm) = none := by
  have h1 := Params.hasReg_index hb
  have h2 : src2.isMem = true → src2.index = 0 := Src.index_of_isMem
  have h3 : src2.low = true → VReg.low src2.index = true := Src.low_index
  have h4 : ev.rcv = false → ev.rcm = 0 := by
    obtain ⟨rc, sae, kz, ksel⟩ := ev
    cases rc <;> simp [Evex.rcv, Evex.rcm]
  have h5 : ev = .plain → ev.rcv = false ∧ ev.sae = false ∧ ev.kz = false ∧ ev.ksel = 0 := by
    rintro rfl
    decide
  have hop : ∀ ops, (Desc.nonLegacy op scalar dbl vl ev dst src1 src2 imm).opIn ops = ops.any (· == op) := opIn_of_code rfl
  have h7 := op.code_le
  unfold nonLegacyShape Evex.maskOk VLen.vex at hs
  unfold Params.hasLength at hl
  apply firstReason_eq_none
  simp only [legalChecks, hop]
  generalize [Op.scalef, .test].any (· == op) = o1 at *
  generalize [Op.hadd, .hsub, .addsub, .dp, .test].any (· == op) = o2 at *
  generalize [Op.dp, .rcp, .rsqrt].any (· == op) = o3 at *
  generalize [Op.round, .cmp, .dp].any (· == op) = o4 at *
  generalize [Op.min, .max].any (· == op) = o5 at *
  generalize [Op.test].any (· == op) = o6 at *
  generalize arithOps.any (· == op) = o7 at *
  generalize unaryOps.any (· == op) = o8 at *
  simp only [List.forall_mem_cons, Desc.nonLegacy, Desc.anyReg, h1, hd, ha]
  clear hop
  cases vl <;> cases o7 <;> cases scalar <;> simp_all [VLen.code] <;> grind

end Sys2Proof
end

