-- ==== Sys2Proof/Laws/State.lean ====
section
/-!
SUPPORT. One lemma for each field of the state under each update, so that no proof unfolds a record update, and the registers
read back after a write.
-/

namespace Sys2Proof.Machine

@[simp] theorem State.writeX_cfg (s : State) (r : VReg) (v : VecWord) : (s.writeX r v).cfg = s.cfg := rfl
@[simp] theorem State.writeX_x (s : State) (r : VReg) (v : VecWord) : (s.writeX r v).x = s.x.set r.toNat (clip s.cfg v) r.isLt := rfl
@[simp] theorem State.writeX_k (s : State) (r : VReg) (v : VecWord) : (s.writeX r v).k = s.k := rfl
@[simp] theorem State.writeX_mxcsr (s : State) (r : VReg) (v : VecWord) : (s.writeX r v).mxcsr = s.mxcsr := rfl
@[simp] theorem State.writeX_cond (s : State) (r : VReg) (v : VecWord) : (s.writeX r v).cond = s.cond := rfl
@[simp] theorem State.writeX_osxmmexcpt (s : State) (r : VReg) (v : VecWord) : (s.writeX r v).osxmmexcpt = s.osxmmexcpt := rfl
@[simp] theorem State.writeX_inputs (s : State) (r : VReg) (v : VecWord) : (s.writeX r v).inputs = s.inputs := rfl
@[simp] theorem State.writeX_traps (s : State) (r : VReg) (v : VecWord) : (s.writeX r v).traps = s.traps := rfl
@[simp] theorem State.writeX_draws (s : State) (r : VReg) (v : VecWord) : (s.writeX r v).draws = s.draws := rfl

@[simp] theorem State.writeK_cfg (s : State) (r : KReg) (v : BitVec 64) : (s.writeK r v).cfg = s.cfg := rfl
@[simp] theorem State.writeK_x (s : State) (r : KReg) (v : BitVec 64) : (s.writeK r v).x = s.x := rfl
@[simp] theorem State.writeK_k (s : State) (r : KReg) (v : BitVec 64) : (s.writeK r v).k = s.k.set r.toNat v r.isLt := rfl
@[simp] theorem State.writeK_mxcsr (s : State) (r : KReg) (v : BitVec 64) : (s.writeK r v).mxcsr = s.mxcsr := rfl
@[simp] theorem State.writeK_cond (s : State) (r : KReg) (v : BitVec 64) : (s.writeK r v).cond = s.cond := rfl
@[simp] theorem State.writeK_osxmmexcpt (s : State) (r : KReg) (v : BitVec 64) : (s.writeK r v).osxmmexcpt = s.osxmmexcpt := rfl
@[simp] theorem State.writeK_inputs (s : State) (r : KReg) (v : BitVec 64) : (s.writeK r v).inputs = s.inputs := rfl
@[simp] theorem State.writeK_traps (s : State) (r : KReg) (v : BitVec 64) : (s.writeK r v).traps = s.traps := rfl
@[simp] theorem State.writeK_draws (s : State) (r : KReg) (v : BitVec 64) : (s.writeK r v).draws = s.draws := rfl

@[simp] theorem State.stick_cfg (s : State) (fl : FlagSet) : (s.stick fl).cfg = s.cfg := rfl
@[simp] theorem State.stick_x (s : State) (fl : FlagSet) : (s.stick fl).x = s.x := rfl
@[simp] theorem State.stick_k (s : State) (fl : FlagSet) : (s.stick fl).k = s.k := rfl
@[simp] theorem State.stick_mxcsr (s : State) (fl : FlagSet) : (s.stick fl).mxcsr = s.mxcsr ||| fl.zeroExtend 32 := rfl
@[simp] theorem State.stick_cond (s : State) (fl : FlagSet) : (s.stick fl).cond = s.cond := rfl
@[simp] theorem State.stick_osxmmexcpt (s : State) (fl : FlagSet) : (s.stick fl).osxmmexcpt = s.osxmmexcpt := rfl
@[simp] theorem State.stick_inputs (s : State) (fl : FlagSet) : (s.stick fl).inputs = s.inputs := rfl
@[simp] theorem State.stick_traps (s : State) (fl : FlagSet) : (s.stick fl).traps = s.traps := rfl
@[simp] theorem State.stick_draws (s : State) (fl : FlagSet) : (s.stick fl).draws = s.draws := rfl

@[simp] theorem complete_cfg (s : State) : (complete s).cfg = s.cfg := rfl
@[simp] theorem complete_x (s : State) : (complete s).x = s.x := rfl
@[simp] theorem complete_k (s : State) : (complete s).k = s.k := rfl
@[simp] theorem complete_mxcsr (s : State) : (complete s).mxcsr = s.mxcsr := rfl
@[simp] theorem complete_cond (s : State) : (complete s).cond = s.cond := rfl
@[simp] theorem complete_osxmmexcpt (s : State) : (complete s).osxmmexcpt = s.osxmmexcpt := rfl
@[simp] theorem complete_inputs (s : State) : (complete s).inputs = s.inputs.tail := rfl
@[simp] theorem complete_traps (s : State) : (complete s).traps = s.traps := rfl
@[simp] theorem complete_draws (s : State) : (complete s).draws = s.draws := rfl

@[simp] theorem takeException_cfg (s : State) : (takeException s).cfg = s.cfg := rfl
@[simp] theorem takeException_x (s : State) : (takeException s).x = s.x := rfl
@[simp] theorem takeException_k (s : State) : (takeException s).k = s.k := rfl
@[simp] theorem takeException_mxcsr (s : State) : (takeException s).mxcsr = s.mxcsr := rfl
@[simp] theorem takeException_cond (s : State) : (takeException s).cond = s.cond := rfl
@[simp] theorem takeException_osxmmexcpt (s : State) : (takeException s).osxmmexcpt = s.osxmmexcpt := rfl
@[simp] theorem takeException_inputs (s : State) : (takeException s).inputs = s.inputs.tail := rfl
@[simp] theorem takeException_traps (s : State) : (takeException s).traps = { vector := if s.osxmmexcpt then .xm else .ud, faulting := s.inputs.head? } :: s.traps := rfl
@[simp] theorem takeException_draws (s : State) : (takeException s).draws = s.draws := rfl

@[simp] theorem CoreInput.withBmem_call (m m' : VecWord) (w : BitVec 64) : (CoreInput.call w m').withBmem m = .call w m := rfl

/-- All that the return from the handler can do (R216): with no exception being handled it stops; else the innermost is gone and its
call stands at the head of the inputs, with the memory operand the return brings. -/
theorem returnFromException_eq_next {m : VecWord} {s u : State} :
    returnFromException m s = .next u ↔
      ∃ t ts, s.traps = t :: ts ∧
        u = { s with traps := ts, inputs := (t.faulting.map (CoreInput.withBmem m)).toList ++ s.inputs.tail } := by
  unfold returnFromException
  cases s.traps with
  | nil => simp
  | cons t ts =>
    constructor
    · intro h
      exact ⟨t, ts, rfl, (Host.Outcome.next.inj h).symm⟩
    · rintro ⟨t', ts', h, rfl⟩
      cases h
      rfl

@[simp] theorem coreInit_cfg (s : State) : (coreInit s).cfg = s.cfg := rfl
@[simp] theorem coreInit_x (s : State) : (coreInit s).x = s.x := rfl
@[simp] theorem coreInit_k (s : State) : (coreInit s).k = s.k := rfl
@[simp] theorem coreInit_mxcsr (s : State) : (coreInit s).mxcsr = s.mxcsr := rfl
@[simp] theorem coreInit_cond (s : State) : (coreInit s).cond = CondFlags.clear := rfl
@[simp] theorem coreInit_osxmmexcpt (s : State) : (coreInit s).osxmmexcpt = false := rfl
@[simp] theorem coreInit_inputs (s : State) : (coreInit s).inputs = s.inputs := rfl
@[simp] theorem coreInit_traps (s : State) : (coreInit s).traps = [] := rfl
@[simp] theorem coreInit_draws (s : State) : (coreInit s).draws = s.draws := rfl

@[simp] theorem corePowerOn_cfg (s : State) : (corePowerOn s).cfg = s.cfg := rfl
@[simp] theorem corePowerOn_x (s : State) : (corePowerOn s).x = Vector.replicate 32 VecWord.zero := rfl
@[simp] theorem corePowerOn_k (s : State) : (corePowerOn s).k = Vector.replicate 8 0 := rfl
@[simp] theorem corePowerOn_mxcsr (s : State) : (corePowerOn s).mxcsr = mxcsrReset := rfl
@[simp] theorem corePowerOn_cond (s : State) : (corePowerOn s).cond = CondFlags.clear := rfl
@[simp] theorem corePowerOn_osxmmexcpt (s : State) : (corePowerOn s).osxmmexcpt = false := rfl
@[simp] theorem corePowerOn_inputs (s : State) : (corePowerOn s).inputs = s.inputs := rfl
@[simp] theorem corePowerOn_traps (s : State) : (corePowerOn s).traps = [] := rfl
@[simp] theorem corePowerOn_draws (s : State) : (corePowerOn s).draws = s.draws := rfl

@[simp] theorem State.placeCall_cfg (s : State) (w : BitVec 64) : (s.placeCall w).cfg = s.cfg := rfl
@[simp] theorem State.placeCall_x (s : State) (w : BitVec 64) : (s.placeCall w).x = s.x := rfl
@[simp] theorem State.placeCall_k (s : State) (w : BitVec 64) : (s.placeCall w).k = s.k := rfl
@[simp] theorem State.placeCall_mxcsr (s : State) (w : BitVec 64) : (s.placeCall w).mxcsr = s.mxcsr := rfl
@[simp] theorem State.placeCall_cond (s : State) (w : BitVec 64) : (s.placeCall w).cond = s.cond := rfl
@[simp] theorem State.placeCall_osxmmexcpt (s : State) (w : BitVec 64) : (s.placeCall w).osxmmexcpt = s.osxmmexcpt := rfl
@[simp] theorem State.placeCall_inputs (s : State) (w : BitVec 64) : (s.placeCall w).inputs = .call w s.bmem :: s.inputs.tail := rfl
@[simp] theorem State.placeCall_traps (s : State) (w : BitVec 64) : (s.placeCall w).traps = s.traps := rfl
@[simp] theorem State.placeCall_draws (s : State) (w : BitVec 64) : (s.placeCall w).draws = s.draws := rfl

@[simp] theorem State.withFetchWord_cfg (s : State) (n w : Nat) : (s.withFetchWord n w).cfg = s.cfg := rfl

@[simp] theorem State.written_readX_self (s : State) (dst : VReg) (R : VecWord) (fl : FlagSet) :
    (s.written dst R fl).readX dst = R := by
  simp [State.written, State.readX]

/-- A register other than the one written reads as before. -/
theorem State.written_readX_ne (s : State) {dst r : VReg} (R : VecWord) (fl : FlagSet) (h : r ≠ dst) :
    (s.written dst R fl).readX r = s.readX r := by
  have h' : dst.toNat ≠ r.toNat := fun e => h (BitVec.eq_of_toNat_eq e.symm)
  simp [State.written, State.readX, Vector.getElem_set_ne _ _ h']

/-- A register just written reads as the part of the value that it holds (R11, R32). -/
@[simp] theorem State.readX_writeX_self (s : State) (r : VReg) (v : VecWord) : (s.writeX r v).readX r = clip s.cfg v := by
  simp [State.writeX, State.readX]

theorem State.readX_writeX_ne (s : State) {r q : VReg} (v : VecWord) (h : q ≠ r) : (s.writeX r v).readX q = s.readX q := by
  have h' : r.toNat ≠ q.toNat := fun e => h (BitVec.eq_of_toNat_eq e.symm)
  simp [State.writeX, State.readX, Vector.getElem_set_ne _ _ h']

@[simp] theorem State.readK_writeK_self (s : State) (r : KReg) (v : BitVec 64) : (s.writeK r v).readK r = v := by
  simp [State.writeK, State.readK]

theorem State.readK_writeK_ne (s : State) {r q : KReg} (v : BitVec 64) (h : q ≠ r) : (s.writeK r v).readK q = s.readK q := by
  have h' : r.toNat ≠ q.toNat := fun e => h (BitVec.eq_of_toNat_eq e.symm)
  simp [State.writeK, State.readK, Vector.getElem_set_ne _ _ h']

/-- What a register of the parameters' width holds needs no clipping. -/
theorem clip_of_fitsWidth {p : Params} {v : VecWord} (h : fitsWidth p v = true) : clip p v = v := by
  unfold fitsWidth at h
  unfold clip
  cases hp : p.maxvl <;> simp_all
  cases v
  simp_all

/-- What is left after clipping fits. -/
@[simp] theorem fitsWidth_clip (p : Params) (v : VecWord) : fitsWidth p (clip p v) = true := by
  unfold fitsWidth clip
  cases hp : p.maxvl <;> simp

end Sys2Proof.Machine
end

