-- ==== Sys2Proof/Laws/Lanes.lean ====
section
/-!
SUPPORT. The lanes of the values that the write-backs build (R88 to R92), and the flags of a call (R55, R56).
-/

namespace Sys2Proof.Machine

@[simp] theorem perBlock_f32 : Fmt.perBlock .f32 = 4 := rfl
@[simp] theorem perBlock_f64 : Fmt.perBlock .f64 = 2 := rfl

theorem perBlock_eq (f : Fmt) : f.perBlock = 128 / f.w := by cases f <;> rfl

theorem perBlock_pos (f : Fmt) : 0 < f.perBlock := by cases f <;> decide

/-- The lower part of an appended value. -/
theorem extract_append_low {n m : Nat} (x : BitVec n) (y : BitVec m) : (x ++ y).extractLsb' 0 m = y := by
  ext i hi
  simp [BitVec.getElem_extractLsb', BitVec.getLsbD_append, hi]

/-- The lanes of an appended value above its lowest. -/
theorem extract_append_high {n m : Nat} (x : BitVec n) (y : BitVec m) (k w : Nat) :
    (x ++ y).extractLsb' (m + k) w = x.extractLsb' k w := by
  ext i hi
  have h : ¬ m + k + i < m := by omega
  have e : m + k + i - m = k + i := by omega
  simp [BitVec.getElem_extractLsb', BitVec.getLsbD_append, h, e]

/-- A lane of a sub-block put together from lanes. -/
theorem blockLane_blockOf (f : Fmt) (g : Nat → BitVec f.w) {l : Nat} (h : l < f.perBlock) :
    blockLane f (blockOf f g) l = g l := by
  cases f with
  | f32 =>
    have h4 : l < 4 := h
    match l, h4 with
    | 0, _ => exact extract_append_low _ _
    | 1, _ => exact (extract_append_high (g 3 ++ g 2 ++ g 1) (g 0) 0 32).trans (extract_append_low _ _)
    | 2, _ =>
      exact (extract_append_high (g 3 ++ g 2 ++ g 1) (g 0) 32 32).trans
        ((extract_append_high (g 3 ++ g 2) (g 1) 0 32).trans (extract_append_low _ _))
    | 3, _ =>
      refine (extract_append_high (g 3 ++ g 2 ++ g 1) (g 0) 64 32).trans
        ((extract_append_high (g 3 ++ g 2) (g 1) 32 32).trans ((extract_append_high (g 3) (g 2) 0 32).trans ?_))
      exact BitVec.extractLsb'_eq_self
  | f64 =>
    have h2 : l < 2 := h
    match l, h2 with
    | 0, _ => exact extract_append_low _ _
    | 1, _ => exact (extract_append_high (g 1) (g 0) 0 64).trans BitVec.extractLsb'_eq_self

/-- Replacing lane 0 of a sub-block: that lane. -/
theorem blockLane_setLow_zero (f : Fmt) (b : Block) (x : BitVec f.w) : blockLane f (setLow f b x) 0 = x := by
  cases f with
  | f32 => exact extract_append_low _ _
  | f64 => exact extract_append_low _ _

/-- Replacing lane 0 of a sub-block: the other lanes. -/
theorem blockLane_setLow_of_ne (f : Fmt) (b : Block) (x : BitVec f.w) {l : Nat} (h0 : l ≠ 0) (h : l < f.perBlock) :
    blockLane f (setLow f b x) l = blockLane f b l := by
  obtain ⟨k, rfl⟩ := Nat.exists_eq_succ_of_ne_zero h0
  cases f with
  | f32 =>
    have hk : k < 3 := by have : k + 1 < 4 := h; omega
    have e : 32 * (k + 1) = 32 + 32 * k := by omega
    show ((b.extractLsb' 32 96 ++ x) : BitVec 128).extractLsb' (32 * (k + 1)) 32 = b.extractLsb' (32 * (k + 1)) 32
    rw [e]
    refine (extract_append_high (b.extractLsb' 32 96) x (32 * k) 32).trans ?_
    ext i hi
    have : 32 * k + i < 96 := by omega
    simp [BitVec.getElem_extractLsb', this, Nat.add_assoc]
  | f64 =>
    have hk : k < 1 := by have : k + 1 < 2 := h; omega
    obtain rfl : k = 0 := by omega
    refine (extract_append_high (b.extractLsb' 64 64) x 0 64).trans ?_
    exact BitVec.extractLsb'_eq_self

/-- A lane of a value is a lane of the sub-block it lies in. -/
theorem lane_eq_blockLane (f : Fmt) (v : VecWord) (i : Nat) :
    lane f v i = blockLane f (v.block (i / f.perBlock)) (i % f.perBlock) := rfl

/-- The lanes of the lowest sub-block. -/
theorem lane_of_lt (f : Fmt) (v : VecWord) {i : Nat} (h : i < f.perBlock) : lane f v i = blockLane f v.b0 i := by
  rw [lane_eq_blockLane, Nat.div_eq_of_lt h, Nat.mod_eq_of_lt h]
  rfl

/-- A lane of the zero sub-block. -/
theorem blockLane_zero (f : Fmt) (l : Nat) : blockLane f (0 : Block) l = 0 := by
  ext i hi
  simp [blockLane]

/-- The lanes of a packed legacy result (R89). -/
theorem lane_writeBackLegacyPacked (f : Fmt) (ci : CallIn) (t : Nat → BitVec f.w) {i : Nat} (h : i < f.perBlock) :
    lane f (writeBackLegacyPacked f ci t) i = t i := by
  rw [lane_of_lt f _ h]
  exact blockLane_blockOf f t h

/-- Lane 0 of a scalar legacy result (R91). -/
theorem lane_writeBackLegacyScalar_zero (f : Fmt) (ci : CallIn) (t : Nat → BitVec f.w) :
    lane f (writeBackLegacyScalar f ci t) 0 = t 0 := by
  rw [lane_of_lt f _ (perBlock_pos f)]
  exact blockLane_setLow_zero f _ _

/-- The other lanes of the lowest sub-block of a scalar legacy result (R91). -/
theorem lane_writeBackLegacyScalar_of_ne (f : Fmt) (ci : CallIn) (t : Nat → BitVec f.w) {i : Nat} (h0 : i ≠ 0)
    (h : i < f.perBlock) : lane f (writeBackLegacyScalar f ci t) i = lane f ci.dold i := by
  rw [lane_of_lt f _ h, lane_of_lt f _ h]
  exact blockLane_setLow_of_ne f _ _ h0 h

/-- Lane 0 of a scalar non-legacy result (R92). -/
theorem lane_writeBackScalar_zero (f : Fmt) (d : Desc) (ci : CallIn) (t : Nat → BitVec f.w) :
    lane f (writeBackScalar f d ci t) 0 = if ci.enabled 0 then t 0 else if d.kz then 0 else lane f ci.dold 0 := by
  rw [lane_of_lt f _ (perBlock_pos f)]
  exact blockLane_setLow_zero f _ _

/-- The other lanes of the lowest sub-block of a scalar non-legacy result are operand A's (R92). -/
theorem lane_writeBackScalar_of_ne (f : Fmt) (d : Desc) (ci : CallIn) (t : Nat → BitVec f.w) {i : Nat} (h0 : i ≠ 0)
    (h : i < f.perBlock) : lane f (writeBackScalar f d ci t) i = lane f ci.a i := by
  rw [lane_of_lt f _ h, lane_of_lt f _ h]
  exact blockLane_setLow_of_ne f _ _ h0 h

/-- The lanes of a packed non-legacy result (R88): those of the active sub-blocks, and zero above. -/
theorem lane_writeBackPacked (f : Fmt) (d : Desc) (ci : CallIn) (t : Nat → BitVec f.w) {i : Nat} (h : i < 4 * f.perBlock) :
    lane f (writeBackPacked f d ci t) i =
      if i < subBlocks d.vl * f.perBlock then if ci.enabled i then t i else if d.kz then 0 else lane f ci.dold i else 0 := by
  have hp := perBlock_pos f
  have hl : i % f.perBlock < f.perBlock := Nat.mod_lt _ hp
  have hj : i / f.perBlock < 4 := (Nat.div_lt_iff_lt_mul hp).2 h
  have hc : i < subBlocks d.vl * f.perBlock ↔ i / f.perBlock < subBlocks d.vl := (Nat.div_lt_iff_lt_mul hp).symm
  have hi : i / f.perBlock * f.perBlock + i % f.perBlock = i := Nat.div_add_mod' i f.perBlock
  simp only [lane_eq_blockLane f (writeBackPacked f d ci t), hc]
  generalize i / f.perBlock = j at *
  have hb : (writeBackPacked f d ci t).block j =
      if j < subBlocks d.vl then
        blockOf f (fun l =>
          if ci.enabled (j * f.perBlock + l) then t (j * f.perBlock + l)
          else if d.kz then 0 else lane f ci.dold (j * f.perBlock + l))
      else 0 := by
    match j, hj with
    | 0, _ | 1, _ | 2, _ | 3, _ => rfl
  rw [hb]
  split
  · rw [blockLane_blockOf f _ hl, hi]
  · exact blockLane_zero f _

/-- The OR of the flags of the enabled lanes below `n`, bit by bit (R55, R87). -/
theorem getLsbD_orFlags (enabled : Nat → Bool) (fl : Nat → FlagSet) (n b : Nat) :
    (orFlags enabled fl n).getLsbD b = true ↔ ∃ i < n, enabled i = true ∧ (fl i).getLsbD b = true := by
  induction n with
  | zero => simp [orFlags]
  | succ n ih =>
    simp only [orFlags, BitVec.getLsbD_or, Bool.or_eq_true, ih]
    constructor
    · rintro (⟨i, hi, h⟩ | h)
      · exact ⟨i, by omega, h⟩
      · split at h
        · exact ⟨n, by omega, ‹_›, h⟩
        · simp at h
    · rintro ⟨i, hi, he, h⟩
      by_cases hin : i = n
      · subst hin
        right
        simp [he, h]
      · exact .inl ⟨i, by omega, he, h⟩

/-- What a call reports, bit by bit (R56). -/
theorem reports_report (st : Status) (n : Nat) (enabled : Nat → Bool) (fl : Nat → FlagSet) :
    Reports (report { st with flags := orFlags enabled fl n }) st.suppress n enabled fl := by
  intro b hb
  simp only [report, BitVec.getLsbD_and, BitVec.getLsbD_not, hb, decide_true, Bool.true_and, Bool.and_eq_true,
    Bool.not_eq_true', getLsbD_orFlags]
  exact and_comm

end Sys2Proof.Machine
end

