-- ==== Sys2Proof/Laws/Call.lean ====
section
/-!
SUPPORT. What one call of the block and the core's commit of it can do (R94, R211, R212), said once: the commit, the status context
of each kind of form, and the result and report of each shape of form.
-/

namespace Sys2Proof.Machine

/-- A call of a legal descriptor answers the commit of what the block computes. -/
theorem call_of_legal {d : Desc} {f : Fmt} {op : LaneOp f} {s : State} (h : refuseReason s.cfg d = none) :
    call d f op s = .next (commit d (blockCall s.cfg d f op (s.sample d)) s) := by
  simp [call, h]

/-- A call answers a next state exactly when its descriptor is legal, and that state is the commit. -/
theorem call_eq_next {d : Desc} {f : Fmt} {op : LaneOp f} {s t : State} :
    call d f op s = .next t ↔
      refuseReason s.cfg d = none ∧ t = commit d (blockCall s.cfg d f op (s.sample d)) s := by
  unfold call
  cases h : refuseReason s.cfg d <;> simp [eq_comm]

theorem callTest_eq_next {d : Desc} {f : Fmt} {s t : State} :
    callTest d f s = .next t ↔ refuseReason s.cfg d = none ∧ t = commit d (blockTest d f (s.sample d)) s := by
  unfold callTest
  cases h : refuseReason s.cfg d <;> simp [eq_comm]

theorem recorded_of_masked (s : State) {fl : FlagSet} (h : fl &&& ~~~s.masks = 0) : recorded s.cfg s.mxcsr fl = fl := by
  have h' : unmasked s.mxcsr fl = 0 := h
  simp [recorded, h']

theorem recorded_eq_recordedOnFault (s : State) (fl : FlagSet) : recorded s.cfg s.mxcsr fl = s.recordedOnFault fl := by
  unfold recorded State.recordedOnFault
  have h : unmasked s.mxcsr fl = fl &&& ~~~s.masks := rfl
  rw [h]
  cases s.cfg.coreFilter <;> simp

/-- The commit of a call that writes its register (R211, R212): the call completes, or it takes the exception. -/
theorem commit_of_we {d : Desc} {o : CallOut} {s : State} (hw : o.we = true) (hc : o.ccv = false)
    (hf : fitsWidth s.cfg o.r = true) :
    commit d o s =
      if o.flags &&& ~~~s.masks = 0 then s.written d.dst o.r o.flags else s.trapped o.flags := by
  have h : unmasked s.mxcsr o.flags = o.flags &&& ~~~s.masks := rfl
  unfold commit
  simp only [h, hw, hc, bne_iff_ne, ne_eq]
  split
  · rename_i hne
    rw [recorded_eq_recordedOnFault]
    rfl
  · rename_i he
    have he' : o.flags &&& ~~~s.masks = 0 := by simpa using he
    rw [recorded_of_masked s he']
    simp only [if_true, Bool.false_eq_true, if_false]
    unfold complete State.writeX State.stick State.written
    simp [clip_of_fitsWidth hf, BitVec.zeroExtend, he']

/-- The commit of a call that reports no flag and writes no register, but the condition flags (R205, R211). -/
theorem commit_of_ccv {d : Desc} {o : CallOut} {s : State} (hw : o.we = false) (hc : o.ccv = true) (hf : o.flags = 0) :
    commit d o s =
      { s with
        cond := { zf := o.zf, cf := o.cf, oflag := false, sf := false, af := false, pf := false }
        inputs := s.inputs.tail } := by
  have h : recorded s.cfg s.mxcsr 0#6 = 0#6 := recorded_of_masked s (by simp)
  unfold commit
  simp [hf, hw, hc, h, unmasked, complete, State.stick, CondFlags.clear]

/-- With every mask set no reported flag is unmasked (R211). -/
theorem masked_of_allMasked {s : State} (h : s.AllMasked) (fl : FlagSet) : fl &&& ~~~s.masks = 0 := by
  rw [h]
  simp

/-- With every mask set a call completes (R211, R227). -/
theorem committed_of_allMasked {s : State} (h : s.AllMasked) (dst : VReg) (R : VecWord) (fl : FlagSet) :
    s.committed dst R fl = s.written dst R fl := if_pos (masked_of_allMasked h fl)

/-- The status context of a legacy form, ROUND apart (R53). -/
theorem build_legacy (s : State) {op : Op} (h : [Op.round].any (· == op) = false) (scalar dbl : Bool) (dst : VReg) (src : Src)
    (imm : BitVec 8) : build s.mxcsr (.legacy op scalar dbl dst src imm) = s.plainStatus := by
  simp only [build, opIn_of_code (d := Desc.legacy op scalar dbl dst src imm) (op := op) rfl, h]
  rfl

/-- The status context of a non-legacy form, ROUND apart (R53). -/
theorem build_nonLegacy (s : State) {op : Op} (h : [Op.round].any (· == op) = false) (scalar dbl : Bool) (vl : VLen) (ev : Evex)
    (dst src1 : VReg) (src2 : Src) (imm : BitVec 8) :
    build s.mxcsr (.nonLegacy op scalar dbl vl ev dst src1 src2 imm) = s.evexStatus ev := by
  simp only [build, opIn_of_code (d := Desc.nonLegacy op scalar dbl vl ev dst src1 src2 imm) (op := op) rfl, h]
  obtain ⟨rc, sae, kz, ksel⟩ := ev
  cases rc with
  | none => rfl
  | some m => cases m <;> rfl

/-- The status context of a legacy ROUND (R41, R53). -/
theorem build_legacy_round (s : State) (scalar dbl : Bool) (dst : VReg) (src : Src) (imm : BitVec 8) :
    build s.mxcsr (.legacy .round scalar dbl dst src imm) = s.roundStatus imm := by
  simp only [build, opIn_of_code (d := Desc.legacy .round scalar dbl dst src imm) (op := .round) rfl]
  have h2 : ([Op.round].any fun x => x == Op.round) = true := rfl
  simp only [Desc.legacy, State.roundStatus, State.status, h2]
  rcases Bool.eq_false_or_eq_true (imm.getLsbD 2) with h | h <;>
    rcases Bool.eq_false_or_eq_true (imm.getLsbD 3) with h' | h' <;> simp only [h, h'] <;> rfl

/-- The status context of a VEX ROUND (R41, R53). -/
theorem build_nonLegacy_round (s : State) (scalar dbl : Bool) (vl : VLen) (dst src1 : VReg) (src2 : Src) (imm : BitVec 8) :
    build s.mxcsr (.nonLegacy .round scalar dbl vl .plain dst src1 src2 imm) = s.roundStatus imm := by
  simp only [build, opIn_of_code (d := Desc.nonLegacy .round scalar dbl vl .plain dst src1 src2 imm) (op := .round) rfl]
  have h2 : ([Op.round].any fun x => x == Op.round) = true := rfl
  simp only [Desc.nonLegacy, Evex.plain, Evex.rcv, State.roundStatus, State.status, h2]
  rcases Bool.eq_false_or_eq_true (imm.getLsbD 2) with h | h <;>
    rcases Bool.eq_false_or_eq_true (imm.getLsbD 3) with h' | h' <;> simp only [h, h'] <;> rfl

/-- Operand B, as it is sampled (R14). -/
theorem sample_b (s : State) (d : Desc) (src : Src) (hm : d.mem = src.isMem) (hi : d.src2 = src.index) :
    (s.sample d).b = s.operandB src := by
  cases src <;> simp [State.sample, hm, hi, Src.isMem, Src.index, State.operandB]

/-- Without a mask every lane of a register is enabled (R14, R87). -/
theorem enabled_of_no_mask (s : State) {d : Desc} (h : d.ksel = 0) {i : Nat} (hi : i < 16) : (s.sample d).enabled i = true := by
  simp only [CallIn.enabled, State.sample, State.maskLanes, h, if_true]
  rw [BitVec.getLsbD_allOnes]
  exact decide_eq_true hi

/-- The lane enables of a call (R14, R87). -/
theorem enabled_eq_laneEnabled (s : State) {d : Desc} {ev : Evex} (h : d.ksel = ev.ksel) {i : Nat} (hi : i < 16) :
    (s.sample d).enabled i = s.laneEnabled ev i := by
  simp only [CallIn.enabled, State.sample, State.maskLanes, State.laneEnabled, h]
  by_cases hk : ev.ksel = 0
  · rw [if_pos hk, BitVec.getLsbD_allOnes, beq_iff_eq.2 hk, decide_eq_true hi]
    rfl
  · rw [if_neg hk, BitVec.getLsbD_extractLsb', decide_eq_true hi, beq_eq_false_iff_ne.2 hk, Nat.zero_add]
    rfl

/-- A report depends on the enables and flags of the lanes below the count alone. -/
theorem reports_congr {fl sup : FlagSet} {n : Nat} {e e' : Nat → Bool} {g g' : Nat → FlagSet} (he : ∀ i < n, e i = e' i)
    (hg : ∀ i < n, g i = g' i) (h : Reports fl sup n e g) : Reports fl sup n e' g' := by
  intro b hb
  rw [h b hb]
  refine and_congr_right fun _ => exists_congr fun i => and_congr_right fun hi => ?_
  rw [he i hi, hg i hi]

theorem lanes_le_sixteen (f : Fmt) (vl : VLen) : VLen.lanes f vl ≤ 16 := by cases f <;> cases vl <;> decide

theorem activeLanes_code (f : Fmt) (vl : VLen) : activeLanes f vl.code = VLen.lanes f vl := by
  cases f <;> cases vl <;> rfl

theorem subBlocks_code (f : Fmt) (vl : VLen) : subBlocks vl.code * f.perBlock = VLen.lanes f vl := by
  cases f <;> cases vl <;> rfl

/-- What a value of at most the sub-blocks that the parameters have holds fits (R45, R88). -/
theorem fitsWidth_writeBackPacked {p : Params} (f : Fmt) {d : Desc} {vl : VLen} (hd : d.vl = vl.code)
    (hl : p.hasLength vl = true) (ci : CallIn) (t : Nat → BitVec f.w) : fitsWidth p (writeBackPacked f d ci t) = true := by
  unfold fitsWidth
  unfold Params.hasLength at hl
  cases hp : p.maxvl
  · cases vl <;> simp_all [writeBackPacked, subBlocks, VLen.code]
  · simp

/-- The result and report of a packed legacy form (R89). -/
theorem packed_legacy (s : State) {d : Desc} {f : Fmt} (op : LaneOp f) {sup : FlagSet} {st : Status} (hb : build s.mxcsr d = st)
    (hs : statusAffecting d = true) (hsc : d.scalar = false) (hnl : d.nl = false) (hvl : d.vl = 0) (hk : d.ksel = 0)
    (hsup : st.suppress = sup) (src : Src) (hm : d.mem = src.isMem) (hi : d.src2 = src.index) (ha : d.src1 = d.dst) :
    LegacyPacked f (op s.cfg st (s.readX d.dst) (s.operandB src)) s sup d.dst
      (blockCall s.cfg d f op (s.sample d)).r (blockCall s.cfg d f op (s.sample d)).flags := by
  have hB := sample_b s d src hm hi
  have hA : (s.sample d).a = s.readX d.dst := by simp [State.sample, ha]
  have hst : build (s.sample d).mx d = st := hb
  have hn : computedLanes f d = 128 / f.w := by
    simp only [computedLanes, hsc, hvl]
    cases f <;> rfl
  have h16 : 128 / f.w ≤ 16 := by cases f <;> decide
  unfold blockCall
  simp only [hst, hs, hA, hB, writeBack, hsc, hnl, if_true, hn]
  refine ⟨fun i h => ?_, rfl, rfl, rfl, ?_⟩
  · exact lane_writeBackLegacyPacked f _ _ (by rw [perBlock_eq]; exact h)
  · rw [← hsup]
    refine reports_congr (fun i h => ?_) (fun i h => rfl) (reports_report st _ _ _)
    exact enabled_of_no_mask s hk (by omega)

/-- The result and report of a scalar legacy form (R91). -/
theorem scalar_legacy (s : State) {d : Desc} {f : Fmt} (op : LaneOp f) {sup : FlagSet} {st : Status} (hb : build s.mxcsr d = st)
    (hs : statusAffecting d = true) (hsc : d.scalar = true) (hnl : d.nl = false) (hk : d.ksel = 0)
    (hsup : st.suppress = sup) (src : Src) (hm : d.mem = src.isMem) (hi : d.src2 = src.index) (ha : d.src1 = d.dst) :
    LegacyScalar f (op s.cfg st (s.readX d.dst) (s.operandB src) 0) s sup d.dst
      (blockCall s.cfg d f op (s.sample d)).r (blockCall s.cfg d f op (s.sample d)).flags := by
  have hB := sample_b s d src hm hi
  have hA : (s.sample d).a = s.readX d.dst := by simp [State.sample, ha]
  have hst : build (s.sample d).mx d = st := hb
  have hn : computedLanes f d = 1 := by simp [computedLanes, hsc]
  unfold blockCall
  simp only [hst, hs, hA, hB, writeBack, hsc, hnl, if_true, hn]
  refine ⟨lane_writeBackLegacyScalar_zero f _ _, fun i h h0 => ?_, rfl, rfl, rfl, ?_⟩
  · exact lane_writeBackLegacyScalar_of_ne f _ _ h0 (by rw [perBlock_eq]; exact h)
  · rw [← hsup]
    refine reports_congr (fun i h => ?_) (fun i h => ?_) (reports_report st _ _ _)
    · exact enabled_of_no_mask s hk (by omega)
    · obtain rfl : i = 0 := by omega
      rfl

/-- The result and report of a packed non-legacy form (R87, R88). -/
theorem packed_nonLegacy (s : State) {d : Desc} {f : Fmt} (op : LaneOp f) {sup : FlagSet} {st : Status} {vl : VLen} {ev : Evex}
    (hb : build s.mxcsr d = st) (hs : statusAffecting d = true) (hsc : d.scalar = false) (hnl : d.nl = true)
    (hvl : d.vl = vl.code) (hk : d.ksel = ev.ksel) (hz : d.kz = ev.kz) (hsup : st.suppress = sup) (src : Src)
    (hm : d.mem = src.isMem) (hi : d.src2 = src.index) :
    NonLegacyPacked f (op s.cfg st (s.readX d.src1) (s.operandB src)) s sup vl ev d.dst
      (blockCall s.cfg d f op (s.sample d)).r (blockCall s.cfg d f op (s.sample d)).flags := by
  have hB := sample_b s d src hm hi
  have hst : build (s.sample d).mx d = st := hb
  have hn : computedLanes f d = VLen.lanes f vl := by simp [computedLanes, hsc, hvl, activeLanes_code]
  have h16 := lanes_le_sixteen f vl
  have h4 : 4 * f.perBlock = 512 / f.w := by cases f <;> rfl
  have hle : VLen.lanes f vl ≤ 512 / f.w := by cases f <;> cases vl <;> decide
  unfold blockCall
  simp only [hst, hs, hB, writeBack, hsc, hnl, if_true, hn]
  refine ⟨fun i h => ?_, fun i h hge => ?_, ?_⟩
  · rw [lane_writeBackPacked f _ _ _ (by omega), hvl, subBlocks_code, if_pos h, enabled_eq_laneEnabled s hk (by omega), hz]
    rfl
  · rw [lane_writeBackPacked f _ _ _ (by omega), hvl, subBlocks_code, if_neg (by omega)]
  · rw [← hsup]
    refine reports_congr (fun i h => ?_) (fun i h => rfl) (reports_report st _ _ _)
    exact enabled_eq_laneEnabled s hk (by omega)

/-- The result and report of a scalar non-legacy form (R87, R92). -/
theorem scalar_nonLegacy (s : State) {d : Desc} {f : Fmt} (op : LaneOp f) {sup : FlagSet} {st : Status} {ev : Evex}
    (hb : build s.mxcsr d = st) (hs : statusAffecting d = true) (hsc : d.scalar = true) (hnl : d.nl = true)
    (hk : d.ksel = ev.ksel) (hz : d.kz = ev.kz) (hsup : st.suppress = sup) (src : Src)
    (hm : d.mem = src.isMem) (hi : d.src2 = src.index) :
    NonLegacyScalar f (op s.cfg st (s.readX d.src1) (s.operandB src) 0) s sup ev d.dst d.src1
      (blockCall s.cfg d f op (s.sample d)).r (blockCall s.cfg d f op (s.sample d)).flags := by
  have hB := sample_b s d src hm hi
  have hst : build (s.sample d).mx d = st := hb
  have hn : computedLanes f d = 1 := by simp [computedLanes, hsc]
  have hE : (s.sample d).enabled 0 = s.laneEnabled ev 0 := enabled_eq_laneEnabled s hk (by omega)
  unfold blockCall
  simp only [hst, hs, hB, writeBack, hsc, hnl, if_true, hn]
  refine ⟨?_, fun i h h0 => ?_, rfl, rfl, rfl, ?_⟩
  · rw [lane_writeBackScalar_zero, hE, hz]
    rfl
  · exact lane_writeBackScalar_of_ne f _ _ _ h0 (by rw [perBlock_eq]; exact h)
  · rw [← hsup]
    refine reports_congr (fun i h => ?_) (fun i h => ?_) (reports_report st _ _ _)
    · obtain rfl : i = 0 := by omega
      exact hE
    · obtain rfl : i = 0 := by omega
      rfl

end Sys2Proof.Machine
end

