-- ==== Sys2Proof/Laws/PerInstr.lean ====
section
/-!
SUPPORT. The family `WellFormedLegal`, one lemma for each constructor of `Instr`: a well-formed instruction that the parameters
have the length and the registers of has a legal descriptor (R45, R46).
-/

set_option Elab.async false

namespace Sys2Proof.Laws.WellFormedLegal

/-- A well-formed instruction has a legal descriptor on every machine with its length and its registers. -/
def Statement (i : Instr) : Prop :=
  ∀ p : Params, i.wellFormed = true → i.fits p = true → refuseReason p i.desc = none

theorem addps (dst : VReg) (src : Src) : Statement (.addps dst src) := by
  intro p hw _
  obtain ⟨hd, hb⟩ := Bool.and_eq_true_iff.1 hw
  exact legal_legacy p (op := .add) (scalar := false) (dbl := false) rfl (.inl rfl) hd hb

theorem addpd (dst : VReg) (src : Src) : Statement (.addpd dst src) := by
  intro p hw _
  obtain ⟨hd, hb⟩ := Bool.and_eq_true_iff.1 hw
  exact legal_legacy p (op := .add) (scalar := false) (dbl := true) rfl (.inl rfl) hd hb

theorem addss (dst : VReg) (src : Src) : Statement (.addss dst src) := by
  intro p hw _
  obtain ⟨hd, hb⟩ := Bool.and_eq_true_iff.1 hw
  exact legal_legacy p (op := .add) (scalar := true) (dbl := false) rfl (.inl rfl) hd hb

theorem addsd (dst : VReg) (src : Src) : Statement (.addsd dst src) := by
  intro p hw _
  obtain ⟨hd, hb⟩ := Bool.and_eq_true_iff.1 hw
  exact legal_legacy p (op := .add) (scalar := true) (dbl := true) rfl (.inl rfl) hd hb

theorem vaddps (vl : VLen) (ev : Evex) (dst src1 : VReg) (src2 : Src) : Statement (.vaddps vl ev dst src1 src2) := by
  intro p hw hf
  simp only [Instr.wellFormed] at hw
  simp only [Instr.fits, Bool.and_eq_true] at hf
  exact legal_nonLegacy p (op := .add) (scalar := false) (dbl := false) (by simp [nonLegacyShape, arithOps, hw]) (.inl rfl) hf.1.1.1 hf.1.1.2 hf.1.2 hf.2
    (.inl rfl) (.inl rfl) (.inl rfl)

theorem vaddpd (vl : VLen) (ev : Evex) (dst src1 : VReg) (src2 : Src) : Statement (.vaddpd vl ev dst src1 src2) := by
  intro p hw hf
  simp only [Instr.wellFormed] at hw
  simp only [Instr.fits, Bool.and_eq_true] at hf
  exact legal_nonLegacy p (op := .add) (scalar := false) (dbl := true) (by simp [nonLegacyShape, arithOps, hw]) (.inl rfl) hf.1.1.1 hf.1.1.2 hf.1.2 hf.2
    (.inl rfl) (.inl rfl) (.inl rfl)

theorem vaddss (ev : Evex) (dst src1 : VReg) (src2 : Src) : Statement (.vaddss ev dst src1 src2) := by
  intro p hw hf
  simp only [Instr.wellFormed] at hw
  simp only [Instr.fits, Bool.and_eq_true] at hf
  exact legal_nonLegacy p (op := .add) (scalar := true) (dbl := false) (by simp [nonLegacyShape, arithOps, hw]) (.inl rfl) rfl hf.1.1 hf.1.2 hf.2
    (.inl rfl) (.inl rfl) (.inl rfl)

theorem vaddsd (ev : Evex) (dst src1 : VReg) (src2 : Src) : Statement (.vaddsd ev dst src1 src2) := by
  intro p hw hf
  simp only [Instr.wellFormed] at hw
  simp only [Instr.fits, Bool.and_eq_true] at hf
  exact legal_nonLegacy p (op := .add) (scalar := true) (dbl := true) (by simp [nonLegacyShape, arithOps, hw]) (.inl rfl) rfl hf.1.1 hf.1.2 hf.2
    (.inl rfl) (.inl rfl) (.inl rfl)

theorem subps (dst : VReg) (src : Src) : Statement (.subps dst src) := by
  intro p hw _
  obtain ⟨hd, hb⟩ := Bool.and_eq_true_iff.1 hw
  exact legal_legacy p (op := .sub) (scalar := false) (dbl := false) rfl (.inl rfl) hd hb

theorem subpd (dst : VReg) (src : Src) : Statement (.subpd dst src) := by
  intro p hw _
  obtain ⟨hd, hb⟩ := Bool.and_eq_true_iff.1 hw
  exact legal_legacy p (op := .sub) (scalar := false) (dbl := true) rfl (.inl rfl) hd hb

theorem subss (dst : VReg) (src : Src) : Statement (.subss dst src) := by
  intro p hw _
  obtain ⟨hd, hb⟩ := Bool.and_eq_true_iff.1 hw
  exact legal_legacy p (op := .sub) (scalar := true) (dbl := false) rfl (.inl rfl) hd hb

theorem subsd (dst : VReg) (src : Src) : Statement (.subsd dst src) := by
  intro p hw _
  obtain ⟨hd, hb⟩ := Bool.and_eq_true_iff.1 hw
  exact legal_legacy p (op := .sub) (scalar := true) (dbl := true) rfl (.inl rfl) hd hb

theorem vsubps (vl : VLen) (ev : Evex) (dst src1 : VReg) (src2 : Src) : Statement (.vsubps vl ev dst src1 src2) := by
  intro p hw hf
  simp only [Instr.wellFormed] at hw
  simp only [Instr.fits, Bool.and_eq_true] at hf
  exact legal_nonLegacy p (op := .sub) (scalar := false) (dbl := false) (by simp [nonLegacyShape, arithOps, hw]) (.inl rfl) hf.1.1.1 hf.1.1.2 hf.1.2 hf.2
    (.inl rfl) (.inl rfl) (.inl rfl)

theorem vsubpd (vl : VLen) (ev : Evex) (dst src1 : VReg) (src2 : Src) : Statement (.vsubpd vl ev dst src1 src2) := by
  intro p hw hf
  simp only [Instr.wellFormed] at hw
  simp only [Instr.fits, Bool.and_eq_true] at hf
  exact legal_nonLegacy p (op := .sub) (scalar := false) (dbl := true) (by simp [nonLegacyShape, arithOps, hw]) (.inl rfl) hf.1.1.1 hf.1.1.2 hf.1.2 hf.2
    (.inl rfl) (.inl rfl) (.inl rfl)

theorem vsubss (ev : Evex) (dst src1 : VReg) (src2 : Src) : Statement (.vsubss ev dst src1 src2) := by
  intro p hw hf
  simp only [Instr.wellFormed] at hw
  simp only [Instr.fits, Bool.and_eq_true] at hf
  exact legal_nonLegacy p (op := .sub) (scalar := true) (dbl := false) (by simp [nonLegacyShape, arithOps, hw]) (.inl rfl) rfl hf.1.1 hf.1.2 hf.2
    (.inl rfl) (.inl rfl) (.inl rfl)

theorem vsubsd (ev : Evex) (dst src1 : VReg) (src2 : Src) : Statement (.vsubsd ev dst src1 src2) := by
  intro p hw hf
  simp only [Instr.wellFormed] at hw
  simp only [Instr.fits, Bool.and_eq_true] at hf
  exact legal_nonLegacy p (op := .sub) (scalar := true) (dbl := true) (by simp [nonLegacyShape, arithOps, hw]) (.inl rfl) rfl hf.1.1 hf.1.2 hf.2
    (.inl rfl) (.inl rfl) (.inl rfl)

theorem mulps (dst : VReg) (src : Src) : Statement (.mulps dst src) := by
  intro p hw _
  obtain ⟨hd, hb⟩ := Bool.and_eq_true_iff.1 hw
  exact legal_legacy p (op := .mul) (scalar := false) (dbl := false) rfl (.inl rfl) hd hb

theorem mulpd (dst : VReg) (src : Src) : Statement (.mulpd dst src) := by
  intro p hw _
  obtain ⟨hd, hb⟩ := Bool.and_eq_true_iff.1 hw
  exact legal_legacy p (op := .mul) (scalar := false) (dbl := true) rfl (.inl rfl) hd hb

theorem mulss (dst : VReg) (src : Src) : Statement (.mulss dst src) := by
  intro p hw _
  obtain ⟨hd, hb⟩ := Bool.and_eq_true_iff.1 hw
  exact legal_legacy p (op := .mul) (scalar := true) (dbl := false) rfl (.inl rfl) hd hb

theorem mulsd (dst : VReg) (src : Src) : Statement (.mulsd dst src) := by
  intro p hw _
  obtain ⟨hd, hb⟩ := Bool.and_eq_true_iff.1 hw
  exact legal_legacy p (op := .mul) (scalar := true) (dbl := true) rfl (.inl rfl) hd hb

theorem vmulps (vl : VLen) (ev : Evex) (dst src1 : VReg) (src2 : Src) : Statement (.vmulps vl ev dst src1 src2) := by
  intro p hw hf
  simp only [Instr.wellFormed] at hw
  simp only [Instr.fits, Bool.and_eq_true] at hf
  exact legal_nonLegacy p (op := .mul) (scalar := false) (dbl := false) (by simp [nonLegacyShape, arithOps, hw]) (.inl rfl) hf.1.1.1 hf.1.1.2 hf.1.2 hf.2
    (.inl rfl) (.inl rfl) (.inl rfl)

theorem vmulpd (vl : VLen) (ev : Evex) (dst src1 : VReg) (src2 : Src) : Statement (.vmulpd vl ev dst src1 src2) := by
  intro p hw hf
  simp only [Instr.wellFormed] at hw
  simp only [Instr.fits, Bool.and_eq_true] at hf
  exact legal_nonLegacy p (op := .mul) (scalar := false) (dbl := true) (by simp [nonLegacyShape, arithOps, hw]) (.inl rfl) hf.1.1.1 hf.1.1.2 hf.1.2 hf.2
    (.inl rfl) (.inl rfl) (.inl rfl)

theorem vmulss (ev : Evex) (dst src1 : VReg) (src2 : Src) : Statement (.vmulss ev dst src1 src2) := by
  intro p hw hf
  simp only [Instr.wellFormed] at hw
  simp only [Instr.fits, Bool.and_eq_true] at hf
  exact legal_nonLegacy p (op := .mul) (scalar := true) (dbl := false) (by simp [nonLegacyShape, arithOps, hw]) (.inl rfl) rfl hf.1.1 hf.1.2 hf.2
    (.inl rfl) (.inl rfl) (.inl rfl)

theorem vmulsd (ev : Evex) (dst src1 : VReg) (src2 : Src) : Statement (.vmulsd ev dst src1 src2) := by
  intro p hw hf
  simp only [Instr.wellFormed] at hw
  simp only [Instr.fits, Bool.and_eq_true] at hf
  exact legal_nonLegacy p (op := .mul) (scalar := true) (dbl := true) (by simp [nonLegacyShape, arithOps, hw]) (.inl rfl) rfl hf.1.1 hf.1.2 hf.2
    (.inl rfl) (.inl rfl) (.inl rfl)

theorem divps (dst : VReg) (src : Src) : Statement (.divps dst src) := by
  intro p hw _
  obtain ⟨hd, hb⟩ := Bool.and_eq_true_iff.1 hw
  exact legal_legacy p (op := .div) (scalar := false) (dbl := false) rfl (.inl rfl) hd hb

theorem divpd (dst : VReg) (src : Src) : Statement (.divpd dst src) := by
  intro p hw _
  obtain ⟨hd, hb⟩ := Bool.and_eq_true_iff.1 hw
  exact legal_legacy p (op := .div) (scalar := false) (dbl := true) rfl (.inl rfl) hd hb

theorem divss (dst : VReg) (src : Src) : Statement (.divss dst src) := by
  intro p hw _
  obtain ⟨hd, hb⟩ := Bool.and_eq_true_iff.1 hw
  exact legal_legacy p (op := .div) (scalar := true) (dbl := false) rfl (.inl rfl) hd hb

theorem divsd (dst : VReg) (src : Src) : Statement (.divsd dst src) := by
  intro p hw _
  obtain ⟨hd, hb⟩ := Bool.and_eq_true_iff.1 hw
  exact legal_legacy p (op := .div) (scalar := true) (dbl := true) rfl (.inl rfl) hd hb

theorem vdivps (vl : VLen) (ev : Evex) (dst src1 : VReg) (src2 : Src) : Statement (.vdivps vl ev dst src1 src2) := by
  intro p hw hf
  simp only [Instr.wellFormed] at hw
  simp only [Instr.fits, Bool.and_eq_true] at hf
  exact legal_nonLegacy p (op := .div) (scalar := false) (dbl := false) (by simp [nonLegacyShape, arithOps, hw]) (.inl rfl) hf.1.1.1 hf.1.1.2 hf.1.2 hf.2
    (.inl rfl) (.inl rfl) (.inl rfl)

theorem vdivpd (vl : VLen) (ev : Evex) (dst src1 : VReg) (src2 : Src) : Statement (.vdivpd vl ev dst src1 src2) := by
  intro p hw hf
  simp only [Instr.wellFormed] at hw
  simp only [Instr.fits, Bool.and_eq_true] at hf
  exact legal_nonLegacy p (op := .div) (scalar := false) (dbl := true) (by simp [nonLegacyShape, arithOps, hw]) (.inl rfl) hf.1.1.1 hf.1.1.2 hf.1.2 hf.2
    (.inl rfl) (.inl rfl) (.inl rfl)

theorem vdivss (ev : Evex) (dst src1 : VReg) (src2 : Src) : Statement (.vdivss ev dst src1 src2) := by
  intro p hw hf
  simp only [Instr.wellFormed] at hw
  simp only [Instr.fits, Bool.and_eq_true] at hf
  exact legal_nonLegacy p (op := .div) (scalar := true) (dbl := false) (by simp [nonLegacyShape, arithOps, hw]) (.inl rfl) rfl hf.1.1 hf.1.2 hf.2
    (.inl rfl) (.inl rfl) (.inl rfl)

theorem vdivsd (ev : Evex) (dst src1 : VReg) (src2 : Src) : Statement (.vdivsd ev dst src1 src2) := by
  intro p hw hf
  simp only [Instr.wellFormed] at hw
  simp only [Instr.fits, Bool.and_eq_true] at hf
  exact legal_nonLegacy p (op := .div) (scalar := true) (dbl := true) (by simp [nonLegacyShape, arithOps, hw]) (.inl rfl) rfl hf.1.1 hf.1.2 hf.2
    (.inl rfl) (.inl rfl) (.inl rfl)

theorem minps (dst : VReg) (src : Src) : Statement (.minps dst src) := by
  intro p hw _
  obtain ⟨hd, hb⟩ := Bool.and_eq_true_iff.1 hw
  exact legal_legacy p (op := .min) (scalar := false) (dbl := false) rfl (.inl rfl) hd hb

theorem minpd (dst : VReg) (src : Src) : Statement (.minpd dst src) := by
  intro p hw _
  obtain ⟨hd, hb⟩ := Bool.and_eq_true_iff.1 hw
  exact legal_legacy p (op := .min) (scalar := false) (dbl := true) rfl (.inl rfl) hd hb

theorem minss (dst : VReg) (src : Src) : Statement (.minss dst src) := by
  intro p hw _
  obtain ⟨hd, hb⟩ := Bool.and_eq_true_iff.1 hw
  exact legal_legacy p (op := .min) (scalar := true) (dbl := false) rfl (.inl rfl) hd hb

theorem minsd (dst : VReg) (src : Src) : Statement (.minsd dst src) := by
  intro p hw _
  obtain ⟨hd, hb⟩ := Bool.and_eq_true_iff.1 hw
  exact legal_legacy p (op := .min) (scalar := true) (dbl := true) rfl (.inl rfl) hd hb

theorem vminps (vl : VLen) (ev : Evex) (dst src1 : VReg) (src2 : Src) : Statement (.vminps vl ev dst src1 src2) := by
  intro p hw hf
  simp only [Instr.wellFormed, Bool.and_eq_true, Evex.noRounding, Option.isNone_iff_eq_none] at hw
  simp only [Instr.fits, Bool.and_eq_true] at hf
  exact legal_nonLegacy p (op := .min) (scalar := false) (dbl := false) (by simp [nonLegacyShape, arithOps, Evex.rcv, hw.1, hw.2]) (.inl rfl) hf.1.1.1 hf.1.1.2 hf.1.2 hf.2
    (.inl rfl) (.inl rfl) (.inl rfl)

theorem vminpd (vl : VLen) (ev : Evex) (dst src1 : VReg) (src2 : Src) : Statement (.vminpd vl ev dst src1 src2) := by
  intro p hw hf
  simp only [Instr.wellFormed, Bool.and_eq_true, Evex.noRounding, Option.isNone_iff_eq_none] at hw
  simp only [Instr.fits, Bool.and_eq_true] at hf
  exact legal_nonLegacy p (op := .min) (scalar := false) (dbl := true) (by simp [nonLegacyShape, arithOps, Evex.rcv, hw.1, hw.2]) (.inl rfl) hf.1.1.1 hf.1.1.2 hf.1.2 hf.2
    (.inl rfl) (.inl rfl) (.inl rfl)

theorem vminss (ev : Evex) (dst src1 : VReg) (src2 : Src) : Statement (.vminss ev dst src1 src2) := by
  intro p hw hf
  simp only [Instr.wellFormed, Bool.and_eq_true, Evex.noRounding, Option.isNone_iff_eq_none] at hw
  simp only [Instr.fits, Bool.and_eq_true] at hf
  exact legal_nonLegacy p (op := .min) (scalar := true) (dbl := false) (by simp [nonLegacyShape, arithOps, Evex.rcv, hw.1, hw.2]) (.inl rfl) rfl hf.1.1 hf.1.2 hf.2
    (.inl rfl) (.inl rfl) (.inl rfl)

theorem vminsd (ev : Evex) (dst src1 : VReg) (src2 : Src) : Statement (.vminsd ev dst src1 src2) := by
  intro p hw hf
  simp only [Instr.wellFormed, Bool.and_eq_true, Evex.noRounding, Option.isNone_iff_eq_none] at hw
  simp only [Instr.fits, Bool.and_eq_true] at hf
  exact legal_nonLegacy p (op := .min) (scalar := true) (dbl := true) (by simp [nonLegacyShape, arithOps, Evex.rcv, hw.1, hw.2]) (.inl rfl) rfl hf.1.1 hf.1.2 hf.2
    (.inl rfl) (.inl rfl) (.inl rfl)

theorem maxps (dst : VReg) (src : Src) : Statement (.maxps dst src) := by
  intro p hw _
  obtain ⟨hd, hb⟩ := Bool.and_eq_true_iff.1 hw
  exact legal_legacy p (op := .max) (scalar := false) (dbl := false) rfl (.inl rfl) hd hb

theorem maxpd (dst : VReg) (src : Src) : Statement (.maxpd dst src) := by
  intro p hw _
  obtain ⟨hd, hb⟩ := Bool.and_eq_true_iff.1 hw
  exact legal_legacy p (op := .max) (scalar := false) (dbl := true) rfl (.inl rfl) hd hb

theorem maxss (dst : VReg) (src : Src) : Statement (.maxss dst src) := by
  intro p hw _
  obtain ⟨hd, hb⟩ := Bool.and_eq_true_iff.1 hw
  exact legal_legacy p (op := .max) (scalar := true) (dbl := false) rfl (.inl rfl) hd hb

theorem maxsd (dst : VReg) (src : Src) : Statement (.maxsd dst src) := by
  intro p hw _
  obtain ⟨hd, hb⟩ := Bool.and_eq_true_iff.1 hw
  exact legal_legacy p (op := .max) (scalar := true) (dbl := true) rfl (.inl rfl) hd hb

theorem vmaxps (vl : VLen) (ev : Evex) (dst src1 : VReg) (src2 : Src) : Statement (.vmaxps vl ev dst src1 src2) := by
  intro p hw hf
  simp only [Instr.wellFormed, Bool.and_eq_true, Evex.noRounding, Option.isNone_iff_eq_none] at hw
  simp only [Instr.fits, Bool.and_eq_true] at hf
  exact legal_nonLegacy p (op := .max) (scalar := false) (dbl := false) (by simp [nonLegacyShape, arithOps, Evex.rcv, hw.1, hw.2]) (.inl rfl) hf.1.1.1 hf.1.1.2 hf.1.2 hf.2
    (.inl rfl) (.inl rfl) (.inl rfl)

theorem vmaxpd (vl : VLen) (ev : Evex) (dst src1 : VReg) (src2 : Src) : Statement (.vmaxpd vl ev dst src1 src2) := by
  intro p hw hf
  simp only [Instr.wellFormed, Bool.and_eq_true, Evex.noRounding, Option.isNone_iff_eq_none] at hw
  simp only [Instr.fits, Bool.and_eq_true] at hf
  exact legal_nonLegacy p (op := .max) (scalar := false) (dbl := true) (by simp [nonLegacyShape, arithOps, Evex.rcv, hw.1, hw.2]) (.inl rfl) hf.1.1.1 hf.1.1.2 hf.1.2 hf.2
    (.inl rfl) (.inl rfl) (.inl rfl)

theorem vmaxss (ev : Evex) (dst src1 : VReg) (src2 : Src) : Statement (.vmaxss ev dst src1 src2) := by
  intro p hw hf
  simp only [Instr.wellFormed, Bool.and_eq_true, Evex.noRounding, Option.isNone_iff_eq_none] at hw
  simp only [Instr.fits, Bool.and_eq_true] at hf
  exact legal_nonLegacy p (op := .max) (scalar := true) (dbl := false) (by simp [nonLegacyShape, arithOps, Evex.rcv, hw.1, hw.2]) (.inl rfl) rfl hf.1.1 hf.1.2 hf.2
    (.inl rfl) (.inl rfl) (.inl rfl)

theorem vmaxsd (ev : Evex) (dst src1 : VReg) (src2 : Src) : Statement (.vmaxsd ev dst src1 src2) := by
  intro p hw hf
  simp only [Instr.wellFormed, Bool.and_eq_true, Evex.noRounding, Option.isNone_iff_eq_none] at hw
  simp only [Instr.fits, Bool.and_eq_true] at hf
  exact legal_nonLegacy p (op := .max) (scalar := true) (dbl := true) (by simp [nonLegacyShape, arithOps, Evex.rcv, hw.1, hw.2]) (.inl rfl) rfl hf.1.1 hf.1.2 hf.2
    (.inl rfl) (.inl rfl) (.inl rfl)

theorem sqrtps (dst : VReg) (src : Src) : Statement (.sqrtps dst src) := by
  intro p hw _
  obtain ⟨hd, hb⟩ := Bool.and_eq_true_iff.1 hw
  exact legal_legacy p (op := .sqrt) (scalar := false) (dbl := false) rfl (.inl rfl) hd hb

theorem sqrtpd (dst : VReg) (src : Src) : Statement (.sqrtpd dst src) := by
  intro p hw _
  obtain ⟨hd, hb⟩ := Bool.and_eq_true_iff.1 hw
  exact legal_legacy p (op := .sqrt) (scalar := false) (dbl := true) rfl (.inl rfl) hd hb

theorem sqrtss (dst : VReg) (src : Src) : Statement (.sqrtss dst src) := by
  intro p hw _
  obtain ⟨hd, hb⟩ := Bool.and_eq_true_iff.1 hw
  exact legal_legacy p (op := .sqrt) (scalar := true) (dbl := false) rfl (.inl rfl) hd hb

theorem sqrtsd (dst : VReg) (src : Src) : Statement (.sqrtsd dst src) := by
  intro p hw _
  obtain ⟨hd, hb⟩ := Bool.and_eq_true_iff.1 hw
  exact legal_legacy p (op := .sqrt) (scalar := true) (dbl := true) rfl (.inl rfl) hd hb

theorem vsqrtps (vl : VLen) (ev : Evex) (dst : VReg) (src : Src) : Statement (.vsqrtps vl ev dst src) := by
  intro p hw hf
  simp only [Instr.wellFormed] at hw
  simp only [Instr.fits, Bool.and_eq_true] at hf
  exact legal_nonLegacy p (op := .sqrt) (scalar := false) (dbl := false) (by simp [nonLegacyShape, arithOps, hw]) (.inl rfl) hf.1.1 hf.1.2 rfl hf.2
    (.inl rfl) (.inr (.inr rfl)) (.inl rfl)

theorem vsqrtpd (vl : VLen) (ev : Evex) (dst : VReg) (src : Src) : Statement (.vsqrtpd vl ev dst src) := by
  intro p hw hf
  simp only [Instr.wellFormed] at hw
  simp only [Instr.fits, Bool.and_eq_true] at hf
  exact legal_nonLegacy p (op := .sqrt) (scalar := false) (dbl := true) (by simp [nonLegacyShape, arithOps, hw]) (.inl rfl) hf.1.1 hf.1.2 rfl hf.2
    (.inl rfl) (.inr (.inr rfl)) (.inl rfl)

theorem vsqrtss (ev : Evex) (dst src1 : VReg) (src2 : Src) : Statement (.vsqrtss ev dst src1 src2) := by
  intro p hw hf
  simp only [Instr.wellFormed] at hw
  simp only [Instr.fits, Bool.and_eq_true] at hf
  exact legal_nonLegacy p (op := .sqrt) (scalar := true) (dbl := false) (by simp [nonLegacyShape, arithOps, hw]) (.inl rfl) rfl hf.1.1 hf.1.2 hf.2
    (.inl rfl) (.inr (.inl rfl)) (.inl rfl)

theorem vsqrtsd (ev : Evex) (dst src1 : VReg) (src2 : Src) : Statement (.vsqrtsd ev dst src1 src2) := by
  intro p hw hf
  simp only [Instr.wellFormed] at hw
  simp only [Instr.fits, Bool.and_eq_true] at hf
  exact legal_nonLegacy p (op := .sqrt) (scalar := true) (dbl := true) (by simp [nonLegacyShape, arithOps, hw]) (.inl rfl) rfl hf.1.1 hf.1.2 hf.2
    (.inl rfl) (.inr (.inl rfl)) (.inl rfl)

theorem vscalefps (vl : VLen) (ev : Evex) (dst src1 : VReg) (src2 : Src) : Statement (.vscalefps vl ev dst src1 src2) := by
  intro p hw hf
  simp only [Instr.wellFormed] at hw
  simp only [Instr.fits, Bool.and_eq_true] at hf
  exact legal_nonLegacy p (op := .scalef) (scalar := false) (dbl := false) (by simp [nonLegacyShape, arithOps, hw]) (.inl rfl) hf.1.1.1 hf.1.1.2 hf.1.2 hf.2
    (.inl rfl) (.inl rfl) (.inl rfl)

theorem vscalefpd (vl : VLen) (ev : Evex) (dst src1 : VReg) (src2 : Src) : Statement (.vscalefpd vl ev dst src1 src2) := by
  intro p hw hf
  simp only [Instr.wellFormed] at hw
  simp only [Instr.fits, Bool.and_eq_true] at hf
  exact legal_nonLegacy p (op := .scalef) (scalar := false) (dbl := true) (by simp [nonLegacyShape, arithOps, hw]) (.inl rfl) hf.1.1.1 hf.1.1.2 hf.1.2 hf.2
    (.inl rfl) (.inl rfl) (.inl rfl)

theorem vscalefss (ev : Evex) (dst src1 : VReg) (src2 : Src) : Statement (.vscalefss ev dst src1 src2) := by
  intro p hw hf
  simp only [Instr.wellFormed] at hw
  simp only [Instr.fits, Bool.and_eq_true] at hf
  exact legal_nonLegacy p (op := .scalef) (scalar := true) (dbl := false) (by simp [nonLegacyShape, arithOps, hw]) (.inl rfl) rfl hf.1.1 hf.1.2 hf.2
    (.inl rfl) (.inl rfl) (.inl rfl)

theorem vscalefsd (ev : Evex) (dst src1 : VReg) (src2 : Src) : Statement (.vscalefsd ev dst src1 src2) := by
  intro p hw hf
  simp only [Instr.wellFormed] at hw
  simp only [Instr.fits, Bool.and_eq_true] at hf
  exact legal_nonLegacy p (op := .scalef) (scalar := true) (dbl := true) (by simp [nonLegacyShape, arithOps, hw]) (.inl rfl) rfl hf.1.1 hf.1.2 hf.2
    (.inl rfl) (.inl rfl) (.inl rfl)

theorem roundps (dst : VReg) (src : Src) (imm : BitVec 8) : Statement (.roundps dst src imm) := by
  intro p hw _
  obtain ⟨hd, hb⟩ := Bool.and_eq_true_iff.1 hw
  exact legal_legacy p (op := .round) (scalar := false) (dbl := false) rfl (.inr rfl) hd hb

theorem roundpd (dst : VReg) (src : Src) (imm : BitVec 8) : Statement (.roundpd dst src imm) := by
  intro p hw _
  obtain ⟨hd, hb⟩ := Bool.and_eq_true_iff.1 hw
  exact legal_legacy p (op := .round) (scalar := false) (dbl := true) rfl (.inr rfl) hd hb

theorem roundss (dst : VReg) (src : Src) (imm : BitVec 8) : Statement (.roundss dst src imm) := by
  intro p hw _
  obtain ⟨hd, hb⟩ := Bool.and_eq_true_iff.1 hw
  exact legal_legacy p (op := .round) (scalar := true) (dbl := false) rfl (.inr rfl) hd hb

theorem roundsd (dst : VReg) (src : Src) (imm : BitVec 8) : Statement (.roundsd dst src imm) := by
  intro p hw _
  obtain ⟨hd, hb⟩ := Bool.and_eq_true_iff.1 hw
  exact legal_legacy p (op := .round) (scalar := true) (dbl := true) rfl (.inr rfl) hd hb

theorem vroundps (vl : VLen) (dst : VReg) (src : Src) (imm : BitVec 8) : Statement (.vroundps vl dst src imm) := by
  intro p hw hf
  simp only [Instr.wellFormed, Bool.and_eq_true] at hw
  simp only [Instr.fits, Bool.and_eq_true] at hf
  exact legal_nonLegacy p (op := .round) (scalar := false) (dbl := false) (by rw [nonLegacyShape, hw.1.1]; rfl) (.inr rfl) hf.1.1 hf.1.2 rfl hf.2
    (.inr ⟨hw.1.2, rfl, hw.2⟩) (.inr (.inr rfl)) (.inl rfl)

theorem vroundpd (vl : VLen) (dst : VReg) (src : Src) (imm : BitVec 8) : Statement (.vroundpd vl dst src imm) := by
  intro p hw hf
  simp only [Instr.wellFormed, Bool.and_eq_true] at hw
  simp only [Instr.fits, Bool.and_eq_true] at hf
  exact legal_nonLegacy p (op := .round) (scalar := false) (dbl := true) (by rw [nonLegacyShape, hw.1.1]; rfl) (.inr rfl) hf.1.1 hf.1.2 rfl hf.2
    (.inr ⟨hw.1.2, rfl, hw.2⟩) (.inr (.inr rfl)) (.inl rfl)

theorem vroundss (dst src1 : VReg) (src2 : Src) (imm : BitVec 8) : Statement (.vroundss dst src1 src2 imm) := by
  intro p hw hf
  simp only [Instr.wellFormed, Bool.and_eq_true] at hw
  simp only [Instr.fits, Bool.and_eq_true] at hf
  exact legal_nonLegacy p (op := .round) (scalar := true) (dbl := false) (rfl) (.inr rfl) rfl hf.1.1 hf.1.2 hf.2
    (.inr ⟨hw.1.1, hw.1.2, hw.2⟩) (.inr (.inl rfl)) (.inl rfl)

theorem vroundsd (dst src1 : VReg) (src2 : Src) (imm : BitVec 8) : Statement (.vroundsd dst src1 src2 imm) := by
  intro p hw hf
  simp only [Instr.wellFormed, Bool.and_eq_true] at hw
  simp only [Instr.fits, Bool.and_eq_true] at hf
  exact legal_nonLegacy p (op := .round) (scalar := true) (dbl := true) (rfl) (.inr rfl) rfl hf.1.1 hf.1.2 hf.2
    (.inr ⟨hw.1.1, hw.1.2, hw.2⟩) (.inr (.inl rfl)) (.inl rfl)

theorem haddps (dst : VReg) (src : Src) : Statement (.haddps dst src) := by
  intro p hw _
  obtain ⟨hd, hb⟩ := Bool.and_eq_true_iff.1 hw
  exact legal_legacy p (op := .hadd) (scalar := false) (dbl := false) rfl (.inl rfl) hd hb

theorem haddpd (dst : VReg) (src : Src) : Statement (.haddpd dst src) := by
  intro p hw _
  obtain ⟨hd, hb⟩ := Bool.and_eq_true_iff.1 hw
  exact legal_legacy p (op := .hadd) (scalar := false) (dbl := true) rfl (.inl rfl) hd hb

theorem vhaddps (vl : VLen) (dst src1 : VReg) (src2 : Src) : Statement (.vhaddps vl dst src1 src2) := by
  intro p hw hf
  simp only [Instr.wellFormed, Bool.and_eq_true] at hw
  simp only [Instr.fits, Bool.and_eq_true] at hf
  exact legal_nonLegacy p (op := .hadd) (scalar := false) (dbl := false) (by rw [nonLegacyShape, hw.1.1.1]; rfl) (.inl rfl) hf.1.1.1 hf.1.1.2 hf.1.2 hf.2
    (.inr ⟨hw.1.1.2, hw.1.2, hw.2⟩) (.inl rfl) (.inl rfl)

theorem vhaddpd (vl : VLen) (dst src1 : VReg) (src2 : Src) : Statement (.vhaddpd vl dst src1 src2) := by
  intro p hw hf
  simp only [Instr.wellFormed, Bool.and_eq_true] at hw
  simp only [Instr.fits, Bool.and_eq_true] at hf
  exact legal_nonLegacy p (op := .hadd) (scalar := false) (dbl := true) (by rw [nonLegacyShape, hw.1.1.1]; rfl) (.inl rfl) hf.1.1.1 hf.1.1.2 hf.1.2 hf.2
    (.inr ⟨hw.1.1.2, hw.1.2, hw.2⟩) (.inl rfl) (.inl rfl)

theorem hsubps (dst : VReg) (src : Src) : Statement (.hsubps dst src) := by
  intro p hw _
  obtain ⟨hd, hb⟩ := Bool.and_eq_true_iff.1 hw
  exact legal_legacy p (op := .hsub) (scalar := false) (dbl := false) rfl (.inl rfl) hd hb

theorem hsubpd (dst : VReg) (src : Src) : Statement (.hsubpd dst src) := by
  intro p hw _
  obtain ⟨hd, hb⟩ := Bool.and_eq_true_iff.1 hw
  exact legal_legacy p (op := .hsub) (scalar := false) (dbl := true) rfl (.inl rfl) hd hb

theorem vhsubps (vl : VLen) (dst src1 : VReg) (src2 : Src) : Statement (.vhsubps vl dst src1 src2) := by
  intro p hw hf
  simp only [Instr.wellFormed, Bool.and_eq_true] at hw
  simp only [Instr.fits, Bool.and_eq_true] at hf
  exact legal_nonLegacy p (op := .hsub) (scalar := false) (dbl := false) (by rw [nonLegacyShape, hw.1.1.1]; rfl) (.inl rfl) hf.1.1.1 hf.1.1.2 hf.1.2 hf.2
    (.inr ⟨hw.1.1.2, hw.1.2, hw.2⟩) (.inl rfl) (.inl rfl)

theorem vhsubpd (vl : VLen) (dst src1 : VReg) (src2 : Src) : Statement (.vhsubpd vl dst src1 src2) := by
  intro p hw hf
  simp only [Instr.wellFormed, Bool.and_eq_true] at hw
  simp only [Instr.fits, Bool.and_eq_true] at hf
  exact legal_nonLegacy p (op := .hsub) (scalar := false) (dbl := true) (by rw [nonLegacyShape, hw.1.1.1]; rfl) (.inl rfl) hf.1.1.1 hf.1.1.2 hf.1.2 hf.2
    (.inr ⟨hw.1.1.2, hw.1.2, hw.2⟩) (.inl rfl) (.inl rfl)

theorem addsubps (dst : VReg) (src : Src) : Statement (.addsubps dst src) := by
  intro p hw _
  obtain ⟨hd, hb⟩ := Bool.and_eq_true_iff.1 hw
  exact legal_legacy p (op := .addsub) (scalar := false) (dbl := false) rfl (.inl rfl) hd hb

theorem addsubpd (dst : VReg) (src : Src) : Statement (.addsubpd dst src) := by
  intro p hw _
  obtain ⟨hd, hb⟩ := Bool.and_eq_true_iff.1 hw
  exact legal_legacy p (op := .addsub) (scalar := false) (dbl := true) rfl (.inl rfl) hd hb

theorem vaddsubps (vl : VLen) (dst src1 : VReg) (src2 : Src) : Statement (.vaddsubps vl dst src1 src2) := by
  intro p hw hf
  simp only [Instr.wellFormed, Bool.and_eq_true] at hw
  simp only [Instr.fits, Bool.and_eq_true] at hf
  exact legal_nonLegacy p (op := .addsub) (scalar := false) (dbl := false) (by rw [nonLegacyShape, hw.1.1.1]; rfl) (.inl rfl) hf.1.1.1 hf.1.1.2 hf.1.2 hf.2
    (.inr ⟨hw.1.1.2, hw.1.2, hw.2⟩) (.inl rfl) (.inl rfl)

theorem vaddsubpd (vl : VLen) (dst src1 : VReg) (src2 : Src) : Statement (.vaddsubpd vl dst src1 src2) := by
  intro p hw hf
  simp only [Instr.wellFormed, Bool.and_eq_true] at hw
  simp only [Instr.fits, Bool.and_eq_true] at hf
  exact legal_nonLegacy p (op := .addsub) (scalar := false) (dbl := true) (by rw [nonLegacyShape, hw.1.1.1]; rfl) (.inl rfl) hf.1.1.1 hf.1.1.2 hf.1.2 hf.2
    (.inr ⟨hw.1.1.2, hw.1.2, hw.2⟩) (.inl rfl) (.inl rfl)

theorem cmpps (dst : VReg) (src : Src) (imm : BitVec 8) : Statement (.cmpps dst src imm) := by
  intro p hw _
  obtain ⟨hd, hb⟩ := Bool.and_eq_true_iff.1 hw
  exact legal_legacy p (op := .cmp) (scalar := false) (dbl := false) rfl (.inr rfl) hd hb

theorem cmppd (dst : VReg) (src : Src) (imm : BitVec 8) : Statement (.cmppd dst src imm) := by
  intro p hw _
  obtain ⟨hd, hb⟩ := Bool.and_eq_true_iff.1 hw
  exact legal_legacy p (op := .cmp) (scalar := false) (dbl := true) rfl (.inr rfl) hd hb

theorem cmpss (dst : VReg) (src : Src) (imm : BitVec 8) : Statement (.cmpss dst src imm) := by
  intro p hw _
  obtain ⟨hd, hb⟩ := Bool.and_eq_true_iff.1 hw
  exact legal_legacy p (op := .cmp) (scalar := true) (dbl := false) rfl (.inr rfl) hd hb

theorem cmpsd (dst : VReg) (src : Src) (imm : BitVec 8) : Statement (.cmpsd dst src imm) := by
  intro p hw _
  obtain ⟨hd, hb⟩ := Bool.and_eq_true_iff.1 hw
  exact legal_legacy p (op := .cmp) (scalar := true) (dbl := true) rfl (.inr rfl) hd hb

theorem vcmpps (vl : VLen) (dst src1 : VReg) (src2 : Src) (imm : BitVec 8) : Statement (.vcmpps vl dst src1 src2 imm) := by
  intro p hw hf
  simp only [Instr.wellFormed, Bool.and_eq_true] at hw
  simp only [Instr.fits, Bool.and_eq_true] at hf
  exact legal_nonLegacy p (op := .cmp) (scalar := false) (dbl := false) (by rw [nonLegacyShape, hw.1.1.1]; rfl) (.inr rfl) hf.1.1.1 hf.1.1.2 hf.1.2 hf.2
    (.inr ⟨hw.1.1.2, hw.1.2, hw.2⟩) (.inl rfl) (.inl rfl)

theorem vcmppd (vl : VLen) (dst src1 : VReg) (src2 : Src) (imm : BitVec 8) : Statement (.vcmppd vl dst src1 src2 imm) := by
  intro p hw hf
  simp only [Instr.wellFormed, Bool.and_eq_true] at hw
  simp only [Instr.fits, Bool.and_eq_true] at hf
  exact legal_nonLegacy p (op := .cmp) (scalar := false) (dbl := true) (by rw [nonLegacyShape, hw.1.1.1]; rfl) (.inr rfl) hf.1.1.1 hf.1.1.2 hf.1.2 hf.2
    (.inr ⟨hw.1.1.2, hw.1.2, hw.2⟩) (.inl rfl) (.inl rfl)

theorem vcmpss (dst src1 : VReg) (src2 : Src) (imm : BitVec 8) : Statement (.vcmpss dst src1 src2 imm) := by
  intro p hw hf
  simp only [Instr.wellFormed, Bool.and_eq_true] at hw
  simp only [Instr.fits, Bool.and_eq_true] at hf
  exact legal_nonLegacy p (op := .cmp) (scalar := true) (dbl := false) (rfl) (.inr rfl) rfl hf.1.1 hf.1.2 hf.2
    (.inr ⟨hw.1.1, hw.1.2, hw.2⟩) (.inl rfl) (.inl rfl)

theorem vcmpsd (dst src1 : VReg) (src2 : Src) (imm : BitVec 8) : Statement (.vcmpsd dst src1 src2 imm) := by
  intro p hw hf
  simp only [Instr.wellFormed, Bool.and_eq_true] at hw
  simp only [Instr.fits, Bool.and_eq_true] at hf
  exact legal_nonLegacy p (op := .cmp) (scalar := true) (dbl := true) (rfl) (.inr rfl) rfl hf.1.1 hf.1.2 hf.2
    (.inr ⟨hw.1.1, hw.1.2, hw.2⟩) (.inl rfl) (.inl rfl)

theorem dpps (dst : VReg) (src : Src) (imm : BitVec 8) : Statement (.dpps dst src imm) := by
  intro p hw _
  obtain ⟨hd, hb⟩ := Bool.and_eq_true_iff.1 hw
  exact legal_legacy p (op := .dp) (scalar := false) (dbl := false) rfl (.inr rfl) hd hb

theorem vdpps (vl : VLen) (dst src1 : VReg) (src2 : Src) (imm : BitVec 8) : Statement (.vdpps vl dst src1 src2 imm) := by
  intro p hw hf
  simp only [Instr.wellFormed, Bool.and_eq_true] at hw
  simp only [Instr.fits, Bool.and_eq_true] at hf
  exact legal_nonLegacy p (op := .dp) (scalar := false) (dbl := false) (by rw [nonLegacyShape, hw.1.1.1]; rfl) (.inr rfl) hf.1.1.1 hf.1.1.2 hf.1.2 hf.2
    (.inr ⟨hw.1.1.2, hw.1.2, hw.2⟩) (.inl rfl) (.inl rfl)

theorem rcpps (dst : VReg) (src : Src) : Statement (.rcpps dst src) := by
  intro p hw _
  obtain ⟨hd, hb⟩ := Bool.and_eq_true_iff.1 hw
  exact legal_legacy p (op := .rcp) (scalar := false) (dbl := false) rfl (.inl rfl) hd hb

theorem rcpss (dst : VReg) (src : Src) : Statement (.rcpss dst src) := by
  intro p hw _
  obtain ⟨hd, hb⟩ := Bool.and_eq_true_iff.1 hw
  exact legal_legacy p (op := .rcp) (scalar := true) (dbl := false) rfl (.inl rfl) hd hb

theorem vrcpps (vl : VLen) (dst : VReg) (src : Src) : Statement (.vrcpps vl dst src) := by
  intro p hw hf
  simp only [Instr.wellFormed, Bool.and_eq_true] at hw
  simp only [Instr.fits, Bool.and_eq_true] at hf
  exact legal_nonLegacy p (op := .rcp) (scalar := false) (dbl := false) (by rw [nonLegacyShape, hw.1.1]; rfl) (.inl rfl) hf.1.1 hf.1.2 rfl hf.2
    (.inr ⟨hw.1.2, rfl, hw.2⟩) (.inr (.inr rfl)) (.inl rfl)

theorem vrcpss (dst src1 : VReg) (src2 : Src) : Statement (.vrcpss dst src1 src2) := by
  intro p hw hf
  simp only [Instr.wellFormed, Bool.and_eq_true] at hw
  simp only [Instr.fits, Bool.and_eq_true] at hf
  exact legal_nonLegacy p (op := .rcp) (scalar := true) (dbl := false) (rfl) (.inl rfl) rfl hf.1.1 hf.1.2 hf.2
    (.inr ⟨hw.1.1, hw.1.2, hw.2⟩) (.inr (.inl rfl)) (.inl rfl)

theorem rsqrtps (dst : VReg) (src : Src) : Statement (.rsqrtps dst src) := by
  intro p hw _
  obtain ⟨hd, hb⟩ := Bool.and_eq_true_iff.1 hw
  exact legal_legacy p (op := .rsqrt) (scalar := false) (dbl := false) rfl (.inl rfl) hd hb

theorem rsqrtss (dst : VReg) (src : Src) : Statement (.rsqrtss dst src) := by
  intro p hw _
  obtain ⟨hd, hb⟩ := Bool.and_eq_true_iff.1 hw
  exact legal_legacy p (op := .rsqrt) (scalar := true) (dbl := false) rfl (.inl rfl) hd hb

theorem vrsqrtps (vl : VLen) (dst : VReg) (src : Src) : Statement (.vrsqrtps vl dst src) := by
  intro p hw hf
  simp only [Instr.wellFormed, Bool.and_eq_true] at hw
  simp only [Instr.fits, Bool.and_eq_true] at hf
  exact legal_nonLegacy p (op := .rsqrt) (scalar := false) (dbl := false) (by rw [nonLegacyShape, hw.1.1]; rfl) (.inl rfl) hf.1.1 hf.1.2 rfl hf.2
    (.inr ⟨hw.1.2, rfl, hw.2⟩) (.inr (.inr rfl)) (.inl rfl)

theorem vrsqrtss (dst src1 : VReg) (src2 : Src) : Statement (.vrsqrtss dst src1 src2) := by
  intro p hw hf
  simp only [Instr.wellFormed, Bool.and_eq_true] at hw
  simp only [Instr.fits, Bool.and_eq_true] at hf
  exact legal_nonLegacy p (op := .rsqrt) (scalar := true) (dbl := false) (rfl) (.inl rfl) rfl hf.1.1 hf.1.2 hf.2
    (.inr ⟨hw.1.1, hw.1.2, hw.2⟩) (.inr (.inl rfl)) (.inl rfl)

theorem vtestps (vl : VLen) (src1 : VReg) (src2 : Src) : Statement (.vtestps vl src1 src2) := by
  intro p hw hf
  simp only [Instr.wellFormed, Bool.and_eq_true] at hw
  simp only [Instr.fits, Bool.and_eq_true] at hf
  exact legal_nonLegacy p (op := .test) (scalar := false) (dbl := false) (by rw [nonLegacyShape, hw.1.1]; rfl) (.inl rfl) hf.1.1 hf.1.2 hf.1.2 hf.2
    (.inr ⟨hw.1.2, hw.1.2, hw.2⟩) (.inl rfl) (.inr rfl)

theorem vtestpd (vl : VLen) (src1 : VReg) (src2 : Src) : Statement (.vtestpd vl src1 src2) := by
  intro p hw hf
  simp only [Instr.wellFormed, Bool.and_eq_true] at hw
  simp only [Instr.fits, Bool.and_eq_true] at hf
  exact legal_nonLegacy p (op := .test) (scalar := false) (dbl := true) (by rw [nonLegacyShape, hw.1.1]; rfl) (.inl rfl) hf.1.1 hf.1.2 hf.1.2 hf.2
    (.inr ⟨hw.1.2, hw.1.2, hw.2⟩) (.inl rfl) (.inr rfl)

end Sys2Proof.Laws.WellFormedLegal
end

