-- ==== Sys2Proof/Machine/Spelling.lean ====
section
/-!
DEFINITION. What the core and an assembler put in front of the block: the x86 encodings a descriptor stands for
(spec/30_encoding.md R47, R48), the compare aliases (R50), and the memory operand value built from the operand's bytes
(spec/20_memory.md R30). No instruction's meaning reads these.
-/

namespace Sys2Proof.Machine

/-- The x86 encodings (R47). -/
inductive X86Encoding
  | sse
  | vex
  | evex
deriving DecidableEq, Repr, Inhabited

/-- The descriptor uses what only an EVEX encoding has (R47). -/
def needsEvex (d : Desc) : Bool :=
  d.rcv || d.sae || d.kz || d.ksel != 0 || d.vl == 2 || d.anyReg (fun r => !VReg.low r)

/-- The x86 encodings that a legal descriptor stands for (R47), with R48's rows that have one of them only: SCALEF is EVEX, and
outside ARITH there is no EVEX form. -/
def x86Encodings (d : Desc) : List X86Encoding :=
  if !d.nl then [.sse]
  else if needsEvex d || d.opIn [.scalef] then [.evex]
  else if d.opIn arithOps then [.vex, .evex]
  else [.vex]

/-- The stems of the legacy compare aliases, by the immediate each stands for (R50); a form suffix follows. -/
def legacyAliases : List String := ["cmpeq", "cmplt", "cmple", "cmpunord", "cmpneq", "cmpnlt", "cmpnle", "cmpord"]

/-- The stems of the non-legacy compare aliases, likewise (R50). -/
def vexAliases : List String :=
  ["vcmpeq", "vcmplt", "vcmple", "vcmpunord", "vcmpneq", "vcmpnlt", "vcmpnle", "vcmpord",
   "vcmpeq_uq", "vcmpnge", "vcmpngt", "vcmpfalse", "vcmpneq_oq", "vcmpge", "vcmpgt", "vcmptrue",
   "vcmpeq_os", "vcmplt_oq", "vcmple_oq", "vcmpunord_s", "vcmpneq_us", "vcmpnlt_uq", "vcmpnle_uq", "vcmpord_s",
   "vcmpeq_us", "vcmpnge_uq", "vcmpngt_uq", "vcmpfalse_os", "vcmpneq_os", "vcmpge_oq", "vcmpgt_oq", "vcmptrue_us"]

/-- The immediate a compare alias's stem stands for, if it is one (R50). -/
def aliasImmediate (stem : String) : Option Nat :=
  match legacyAliases.idxOf? stem with
  | some n => some n
  | none => vexAliases.idxOf? stem

/-- `Bmem` from the bytes of a memory operand, the byte at the lowest address first: byte `j` is bits `8j+7:8j` (R30). -/
def bmemOfBytes (bytes : List (BitVec 8)) : VecWord :=
  VecWord.ofBits (bytes.foldr (fun b v => v <<< 8 ||| b.setWidth 512) 0)

end Sys2Proof.Machine
end

