-- ==== Sys2Proof/Tests/Slice0.lean ====
section
/-!
SUPPORT. The model's own tests: ill-formed terms, descriptors written out from R38, one call of every instruction with the values of
the spec's own example, the exception, the core's actions, and for every statement with hypotheses a state and operands that
meet them. Expected values are the spec's (the file and rule or vector is named at each), never the model's.
-/

set_option Elab.async false

namespace Sys2Proof.Tests

open Sys2Proof.Machine

/-! ### Helpers -/

/-- Four binary32 lanes, lane 0 first. -/
def f32x4 (a b c d : BitVec 32) : Block := d ++ c ++ b ++ a

/-- Two binary64 lanes, lane 0 first. -/
def f64x2 (a b : BitVec 64) : Block := b ++ a

/-- A sub-block no test computes. -/
def junk : Block := 0x5555AAAA5555AAAA5555AAAA5555AAAA

def untouched : VecWord := ⟨junk, junk, junk, junk⟩

/-- A machine with MAXVL = 512 and NVREG = 32, MXCSR, x1, x2, x3 and k1 as given. -/
def start (mx : BitVec 32) (a b d : VecWord) (k1 : BitVec 64 := 0) : State :=
  let s := State.resetWith Params.widest
  { s with mxcsr := mx, x := ((s.x.set 1 a).set 2 b).set 3 d, k := s.k.set 1 k1 }

/-- One step of a call. -/
def sent (w : BitVec 64) (s : State) (bmem : VecWord := VecWord.zero) : Host.Outcome State Fault Refusal :=
  step { s with inputs := [.call w bmem] }

/-- A register, MXCSR and the exceptions being handled, after a step that answers a next state. -/
def after (r : VReg) : Host.Outcome State Fault Refusal → Option (VecWord × BitVec 32 × List ExcVector)
  | .next s => some (s.readX r, s.mxcsr, s.traps.map TrapFrame.vector)
  | _ => none

/-- The condition flags and MXCSR, after a step that answers a next state. -/
def condAfter : Host.Outcome State Fault Refusal → Option (CondFlags × BitVec 32)
  | .next s => some (s.cond, s.mxcsr)
  | _ => none

/-- The outcome is a next state. -/
def isNext : Host.Outcome State Fault Refusal → Bool
  | .next _ => true
  | _ => false

/-- The next state, or the one given. -/
def nextOr (s : State) : Host.Outcome State Fault Refusal → State
  | .next t => t
  | _ => s

theorem eq_next_of_isNext {o : Host.Outcome State Fault Refusal} (s : State) (h : isNext o = true) : o = .next (nextOr s o) := by
  cases o <;> first | rfl | cases h

/-- The reason a descriptor is refused for, if it is. -/
def refusal (p : Params) (w : BitVec 64) : Option RefuseReason :=
  match decode p w with
  | .ok _ => none
  | .error r => some r

/-- The instruction of a descriptor, if it is legal. -/
def decoded (w : BitVec 64) : Option Instr :=
  match decode Params.widest w with
  | .ok i => some i
  | .error _ => none

/-- MAXVL = 256, NVREG = 16. -/
def narrow : Params := { Params.widest with maxvl := .w256, nvreg := .n16 }

/-! ### Ill-formed terms, one for each check of WellFormed (R45) -/

theorem test_illFormed_legacy_dst : (Instr.addps 16 (.reg 0)).wellFormed = false := by decide

theorem test_illFormed_legacy_src : (Instr.addps 0 (.reg 16)).wellFormed = false := by decide

theorem test_illFormed_legacy_imm_dst : (Instr.roundsd 16 .mem 0).wellFormed = false := by decide

theorem test_illFormed_legacy_imm_src : (Instr.cmpps 0 (.reg 16) 0).wellFormed = false := by decide

theorem test_illFormed_mask : (Instr.vaddps .v512 { rc := none, sae := false, kz := true, ksel := 0 } 0 0 (.reg 0)).wellFormed = false := by decide

theorem test_illFormed_unary_mask : (Instr.vsqrtpd .v512 { rc := none, sae := false, kz := true, ksel := 0 } 0 (.reg 0)).wellFormed = false := by decide

theorem test_illFormed_scalar_mask : (Instr.vdivsd { rc := none, sae := false, kz := true, ksel := 0 } 0 0 (.reg 0)).wellFormed = false := by decide

theorem test_illFormed_rounding : (Instr.vminps .v512 { rc := some .rz, sae := false, kz := false, ksel := 0 } 0 0 (.reg 0)).wellFormed = false := by decide

theorem test_illFormed_scalar_rounding : (Instr.vmaxsd { rc := some .rn, sae := false, kz := false, ksel := 0 } 0 0 (.reg 0)).wellFormed = false := by decide

theorem test_illFormed_vex_length : (Instr.vhaddps .v512 0 0 (.reg 0)).wellFormed = false := by decide

theorem test_illFormed_vex_dst : (Instr.vcmpps .v256 16 0 (.reg 0) 0).wellFormed = false := by decide

theorem test_illFormed_vex_src1 : (Instr.vdpps .v256 0 16 (.reg 0) 0).wellFormed = false := by decide

theorem test_illFormed_vex_src2 : (Instr.vaddsubpd .v256 0 0 (.reg 16)).wellFormed = false := by decide

theorem test_illFormed_vex_unary_length : (Instr.vrcpps .v512 0 (.reg 0)).wellFormed = false := by decide

theorem test_illFormed_vex_unary_dst : (Instr.vroundps .v128 16 (.reg 0) 0).wellFormed = false := by decide

theorem test_illFormed_vex_scalar_src1 : (Instr.vrcpss 0 16 (.reg 0)).wellFormed = false := by decide

theorem test_illFormed_vex_scalar_src2 : (Instr.vroundss 0 0 (.reg 16) 0).wellFormed = false := by decide

theorem test_illFormed_test_length : (Instr.vtestps .v512 0 (.reg 0)).wellFormed = false := by decide

theorem test_illFormed_test_src1 : (Instr.vtestpd .v128 16 (.reg 0)).wellFormed = false := by decide

theorem test_illFormed_fits_length : (Instr.vaddps .v512 .plain 0 0 (.reg 0)).fits narrow = false := by decide

theorem test_illFormed_fits_dst : (Instr.vaddps .v256 .plain 16 0 (.reg 0)).fits narrow = false := by decide

theorem test_illFormed_fits_src1 : (Instr.vaddsd .plain 0 16 (.reg 0)).fits narrow = false := by decide

theorem test_illFormed_fits_src2 : (Instr.vsqrtps .v128 .plain 0 (.reg 16)).fits narrow = false := by decide

/-! ### Descriptors that R45 refuses, one for each reason, at a boundary where there is one -/

theorem test_refuses_reservedBits : refusal Params.widest 0x0001000000000000 = some .reservedBits := by decide

theorem test_refuses_reservedBits_low : refusal Params.widest 0x0000000800000000 = some .reservedBits := by decide

theorem test_refuses_reservedOp : refusal Params.widest 0x0000000000000011 = some .reservedOp := by decide

theorem test_refuses_reservedVl : refusal Params.widest 0x0000000000000700 = some .reservedVl := by decide

theorem test_refuses_vlExceedsMaxvl : refusal narrow 0x0000000000000600 = some .vlExceedsMaxvl := by decide

theorem test_refuses_regRange : refusal narrow 0x0000000010000400 = some .regRange := by decide

theorem test_refuses_regRangeVex : refusal Params.widest 0x0000000200000409 = some .regRangeVex := by decide

theorem test_refuses_memSrc2 : refusal Params.widest 0x0000000420000000 = some .memSrc2 := by decide

theorem test_refuses_legacyVl : refusal Params.widest 0x0000000000000100 = some .legacyVl := by decide

theorem test_refuses_legacySrc1 : refusal Params.widest 0x0000000000080000 = some .legacySrc1 := by decide

theorem test_refuses_regRangeLegacy : refusal Params.widest 0x0000000010800000 = some .regRangeLegacy := by decide

theorem test_refuses_noLegacyForm : refusal Params.widest 0x0000000000000007 = some .noLegacyForm := by decide

theorem test_refuses_scalarVl : refusal Params.widest 0x0000000000000540 = some .scalarVl := by decide

theorem test_refuses_noScalarForm : refusal Params.widest 0x0000000000000449 = some .noScalarForm := by decide

theorem test_refuses_noDoubleForm : refusal Params.widest 0x000000000000048E = some .noDoubleForm := by decide

theorem test_refuses_no512Form : refusal Params.widest 0x000000000000060C = some .no512Form := by decide

theorem test_refuses_noEvexFeature : refusal Params.widest 0x0000000000004408 = some .noEvexFeature := by decide

theorem test_refuses_noRoundingOverride : refusal Params.widest 0x0000000000000C04 = some .noRoundingOverride := by decide

theorem test_refuses_rcmWithoutRcv : refusal Params.widest 0x0000000000001400 = some .rcmWithoutRcv := by decide

theorem test_refuses_zeroingWithoutMask : refusal Params.widest 0x0000000000008400 = some .zeroingWithoutMask := by decide

theorem test_refuses_unarySrc1 : refusal Params.widest 0x0000000001000406 = some .unarySrc1 := by decide

theorem test_refuses_immUnused : refusal Params.widest 0x0000010000000000 = some .immUnused := by decide

theorem test_refuses_testDst : refusal Params.widest 0x0000000001000410 = some .testDst := by decide

/-! ### Every constructor from a word written out from R38: `OP | S<<6 | D<<7 | VL<<8 | NL<<10 | RCV<<11 | RCM<<12 | SAE<<14 | KZ<<15 |
KSEL<<16 | DST<<19 | SRC1<<24 | SRC2<<29 | MEM<<34 | IMM8<<40` -/

theorem test_decode_add : ∀ e ∈ ([
    (0x000000040A500000, .addps 10 .mem),
    (0x00000000A3180080, .addpd 3 (.reg 5)),
    (0x00000000E9480040, .addss 9 (.reg 7)),
    (0x000000040C6000C0, .addsd 12 .mem),
    (0x000000006686CD00, .vaddps .v256 { rc := some .rn, sae := true, kz := true, ksel := 6 } 16 6 (.reg 3)),
    (0x0000000166794E80, .vaddpd .v512 { rc := some .rn, sae := true, kz := false, ksel := 1 } 15 6 (.reg 11)),
    (0x000000007B8A6C40, .vaddss { rc := some .ru, sae := true, kz := false, ksel := 2 } 17 27 (.reg 3)),
    (0x00000000E3A32CC0, .vaddsd { rc := some .ru, sae := false, kz := false, ksel := 3 } 20 3 (.reg 7))] : List (BitVec 64 × Instr)),
    decoded e.1 = some e.2 ∧ encode e.2 = e.1 := by
  decide +kernel

theorem test_decode_sub : ∀ e ∈ ([
    (0x0000000406300001, .subps 6 .mem),
    (0x000000040B580081, .subpd 11 .mem),
    (0x0000000105280041, .subss 5 (.reg 8)),
    (0x00000001A21000C1, .subsd 2 (.reg 13)),
    (0x0000000135F37C01, .vsubps .v128 { rc := some .rz, sae := true, kz := false, ksel := 3 } 30 21 (.reg 9)),
    (0x000000040BA38481, .vsubpd .v128 { rc := none, sae := false, kz := true, ksel := 3 } 20 11 .mem),
    (0x000000041A2DCC41, .vsubss { rc := some .rn, sae := true, kz := true, ksel := 5 } 5 26 .mem),
    (0x0000000169448CC1, .vsubsd { rc := some .rn, sae := false, kz := true, ksel := 4 } 8 9 (.reg 11))] : List (BitVec 64 × Instr)),
    decoded e.1 = some e.2 ∧ encode e.2 = e.1 := by
  decide +kernel

theorem test_decode_mul : ∀ e ∈ ([
    (0x00000001CA500002, .mulps 10 (.reg 14)),
    (0x00000000CE700082, .mulpd 14 (.reg 6)),
    (0x00000000CE700042, .mulss 14 (.reg 6)),
    (0x00000000EA5000C2, .mulsd 10 (.reg 7)),
    (0x000000035F294602, .vmulps .v512 { rc := none, sae := true, kz := false, ksel := 1 } 5 31 (.reg 26)),
    (0x00000003FB4DCD82, .vmulpd .v256 { rc := some .rn, sae := true, kz := true, ksel := 5 } 9 27 (.reg 31)),
    (0x00000002FB497C42, .vmulss { rc := some .rz, sae := true, kz := false, ksel := 1 } 9 27 (.reg 23)),
    (0x000000015A868CC2, .vmulsd { rc := some .rn, sae := false, kz := true, ksel := 6 } 16 26 (.reg 10))] : List (BitVec 64 × Instr)),
    decoded e.1 = some e.2 ∧ encode e.2 = e.1 := by
  decide +kernel

theorem test_decode_div : ∀ e ∈ ([
    (0x000000002F780003, .divps 15 (.reg 1)),
    (0x000000006F780083, .divpd 15 (.reg 3)),
    (0x0000000125280043, .divss 5 (.reg 9)),
    (0x00000004063000C3, .divsd 6 .mem),
    (0x00000002AEA9BE03, .vdivps .v512 { rc := some .rz, sae := false, kz := true, ksel := 1 } 21 14 (.reg 21)),
    (0x0000000407353D83, .vdivpd .v256 { rc := some .rz, sae := false, kz := false, ksel := 5 } 6 7 .mem),
    (0x00000003F2FC1C43, .vdivss { rc := some .rd, sae := false, kz := false, ksel := 4 } 31 18 (.reg 31)),
    (0x0000000413B30CC3, .vdivsd { rc := some .rn, sae := false, kz := false, ksel := 3 } 22 19 .mem)] : List (BitVec 64 × Instr)),
    decoded e.1 = some e.2 ∧ encode e.2 = e.1 := by
  decide +kernel

theorem test_decode_min : ∀ e ∈ ([
    (0x00000001C6300004, .minps 6 (.reg 14)),
    (0x0000000401080084, .minpd 1 .mem),
    (0x0000000087380044, .minss 7 (.reg 4)),
    (0x00000001010800C4, .minsd 1 (.reg 8)),
    (0x0000000385194604, .vminps .v512 { rc := none, sae := true, kz := false, ksel := 1 } 3 5 (.reg 28)),
    (0x00000000F54FC484, .vminpd .v128 { rc := none, sae := true, kz := true, ksel := 7 } 9 21 (.reg 7)),
    (0x00000002890A8444, .vminss { rc := none, sae := false, kz := true, ksel := 2 } 1 9 (.reg 20)),
    (0x0000000091EE84C4, .vminsd { rc := none, sae := false, kz := true, ksel := 6 } 29 17 (.reg 4))] : List (BitVec 64 × Instr)),
    decoded e.1 = some e.2 ∧ encode e.2 = e.1 := by
  decide +kernel

theorem test_decode_max : ∀ e ∈ ([
    (0x0000000408400005, .maxps 8 .mem),
    (0x000000008C600085, .maxpd 12 (.reg 4)),
    (0x0000000404200045, .maxss 4 .mem),
    (0x000000040B5800C5, .maxsd 11 .mem),
    (0x00000002A26E0505, .vmaxps .v256 { rc := none, sae := false, kz := false, ksel := 6 } 13 2 (.reg 21)),
    (0x000000009984C685, .vmaxpd .v512 { rc := none, sae := true, kz := true, ksel := 4 } 16 25 (.reg 4)),
    (0x00000000BC528445, .vmaxss { rc := none, sae := false, kz := true, ksel := 2 } 10 28 (.reg 5)),
    (0x00000001435204C5, .vmaxsd { rc := none, sae := false, kz := false, ksel := 2 } 10 3 (.reg 10))] : List (BitVec 64 × Instr)),
    decoded e.1 = some e.2 ∧ encode e.2 = e.1 := by
  decide +kernel

theorem test_decode_sqrt : ∀ e ∈ ([
    (0x0000000046300006, .sqrtps 6 (.reg 2)),
    (0x000000040A500086, .sqrtpd 10 .mem),
    (0x000000008A500046, .sqrtss 10 (.reg 4)),
    (0x00000001284000C6, .sqrtsd 8 (.reg 9)),
    (0x00000003806D1D06, .vsqrtps .v256 { rc := some .rd, sae := false, kz := false, ksel := 5 } 13 (.reg 28)),
    (0x00000003800A0C86, .vsqrtpd .v128 { rc := some .rn, sae := false, kz := false, ksel := 2 } 1 (.reg 28)),
    (0x00000000A843BC46, .vsqrtss { rc := some .rz, sae := false, kz := true, ksel := 3 } 8 8 (.reg 5)),
    (0x00000003B43F5CC6, .vsqrtsd { rc := some .rd, sae := true, kz := false, ksel := 7 } 7 20 (.reg 29))] : List (BitVec 64 × Instr)),
    decoded e.1 = some e.2 ∧ encode e.2 = e.1 := by
  decide +kernel

theorem test_decode_scalef : ∀ e ∈ ([
    (0x00000000712BDE07, .vscalefps .v512 { rc := some .rd, sae := true, kz := true, ksel := 3 } 5 17 (.reg 3)),
    (0x000000010F147D87, .vscalefpd .v256 { rc := some .rz, sae := true, kz := false, ksel := 4 } 2 15 (.reg 8)),
    (0x0000000416748447, .vscalefss { rc := none, sae := false, kz := true, ksel := 4 } 14 22 .mem),
    (0x00000000AF6904C7, .vscalefsd { rc := none, sae := false, kz := false, ksel := 1 } 13 15 (.reg 5))] : List (BitVec 64 × Instr)),
    decoded e.1 = some e.2 ∧ encode e.2 = e.1 := by
  decide +kernel

theorem test_decode_round : ∀ e ∈ ([
    (0x00004D0108400008, .roundps 8 (.reg 8) 0x4D),
    (0x0000780142100088, .roundpd 2 (.reg 10) 0x78),
    (0x0000BE012E700048, .roundss 14 (.reg 9) 0xBE),
    (0x00008400852800C8, .roundsd 5 (.reg 4) 0x84),
    (0x0000D10400300508, .vroundps .v256 6 .mem 0xD1),
    (0x0000970400400588, .vroundpd .v256 8 .mem 0x97),
    (0x0000310107780448, .vroundss 15 7 (.reg 8) 0x31),
    (0x00009104064004C8, .vroundsd 8 6 .mem 0x91)] : List (BitVec 64 × Instr)),
    decoded e.1 = some e.2 ∧ encode e.2 = e.1 := by
  decide +kernel

theorem test_decode_hadd : ∀ e ∈ ([
    (0x0000000108400009, .haddps 8 (.reg 8)),
    (0x000000010A500089, .haddpd 10 (.reg 8)),
    (0x000000002A480409, .vhaddps .v128 9 10 (.reg 1)),
    (0x0000000025280489, .vhaddpd .v128 5 5 (.reg 1))] : List (BitVec 64 × Instr)),
    decoded e.1 = some e.2 ∧ encode e.2 = e.1 := by
  decide +kernel

theorem test_decode_hsub : ∀ e ∈ ([
    (0x000000016B58000A, .hsubps 11 (.reg 11)),
    (0x000000040C60008A, .hsubpd 12 .mem),
    (0x000000040930040A, .vhsubps .v128 6 9 .mem),
    (0x000000016808048A, .vhsubpd .v128 1 8 (.reg 11))] : List (BitVec 64 × Instr)),
    decoded e.1 = some e.2 ∧ encode e.2 = e.1 := by
  decide +kernel

theorem test_decode_addsub : ∀ e ∈ ([
    (0x000000040840000B, .addsubps 8 .mem),
    (0x000000040318008B, .addsubpd 3 .mem),
    (0x00000000E450050B, .vaddsubps .v256 10 4 (.reg 7)),
    (0x000000006330058B, .vaddsubpd .v256 6 3 (.reg 3))] : List (BitVec 64 × Instr)),
    decoded e.1 = some e.2 ∧ encode e.2 = e.1 := by
  decide +kernel

theorem test_decode_cmp : ∀ e ∈ ([
    (0x000049040948000C, .cmpps 9 .mem 0x49),
    (0x000091010840008C, .cmppd 8 (.reg 8) 0x91),
    (0x00003F040738004C, .cmpss 7 .mem 0x3F),
    (0x00005C01E10800CC, .cmpsd 1 (.reg 15) 0x5C),
    (0x00009D004670050C, .vcmpps .v256 14 6 (.reg 2) 0x9D),
    (0x0000CA012E10048C, .vcmppd .v128 2 14 (.reg 9) 0xCA),
    (0x0000B6008368044C, .vcmpss 13 3 (.reg 4) 0xB6),
    (0x0000C9040E3804CC, .vcmpsd 7 14 .mem 0xC9)] : List (BitVec 64 × Instr)),
    decoded e.1 = some e.2 ∧ encode e.2 = e.1 := by
  decide +kernel

theorem test_decode_dp : ∀ e ∈ ([
    (0x00001600C738000D, .dpps 7 (.reg 6) 0x16),
    (0x0000E2010F38050D, .vdpps .v256 7 15 (.reg 8) 0xE2)] : List (BitVec 64 × Instr)),
    decoded e.1 = some e.2 ∧ encode e.2 = e.1 := by
  decide +kernel

theorem test_decode_rcp : ∀ e ∈ ([
    (0x000000040420000E, .rcpps 4 .mem),
    (0x00000000A840004E, .rcpss 8 (.reg 5)),
    (0x00000000E008040E, .vrcpps .v128 1 (.reg 7)),
    (0x00000000A738044E, .vrcpss 7 7 (.reg 5))] : List (BitVec 64 × Instr)),
    decoded e.1 = some e.2 ∧ encode e.2 = e.1 := by
  decide +kernel

theorem test_decode_rsqrt : ∀ e ∈ ([
    (0x000000040C60000F, .rsqrtps 12 .mem),
    (0x00000001C840004F, .rsqrtss 8 (.reg 14)),
    (0x000000040070040F, .vrsqrtps .v128 14 .mem),
    (0x000000040E38044F, .vrsqrtss 7 14 .mem)] : List (BitVec 64 × Instr)),
    decoded e.1 = some e.2 ∧ encode e.2 = e.1 := by
  decide +kernel

theorem test_decode_test : ∀ e ∈ ([
    (0x0000000169480510, .vtestps .v256 9 (.reg 11)),
    (0x0000000185280590, .vtestpd .v256 5 (.reg 12))] : List (BitVec 64 × Instr)),
    decoded e.1 = some e.2 ∧ encode e.2 = e.1 := by
  decide +kernel

/-- The descriptors of the spec's own programs and scenarios (95_test_vectors.md). -/
theorem test_decode_programs : ∀ e ∈ ([
    (0x0000000041080040, .addss 1 (.reg 2)), (0x000003004118044C, .vcmpss 3 1 (.reg 2) 3),
    (0x000031004108000D, .dpps 1 (.reg 2) 0x31), (0x0000000041180509, .vhaddps .v256 3 1 (.reg 2)),
    (0x0000000041283E00, .vaddps .v512 { rc := some .rz, sae := false, kz := false, ksel := 0 } 5 1 (.reg 2)),
    (0x0000000041218500, .vaddps .v256 { rc := none, sae := false, kz := true, ksel := 1 } 4 1 (.reg 2)),
    (0x00000000A0300506, .vsqrtps .v256 .plain 6 (.reg 5)), (0x0000000063180410, .vtestps .v128 3 (.reg 3)),
    (0x00000B0060200508, .vroundps .v256 4 (.reg 3) 0x0B), (0x000001040218044C, .vcmpss 3 2 .mem 1),
    (0x0000000401080002, .mulps 1 .mem)] : List (BitVec 64 × Instr)), decoded e.1 = some e.2 := by
  decide +kernel

/-! ### One call of every instruction: the example of its rule -/

/-- R77, the example of 41_compare.md. -/
theorem test_cmpps :
    after 1 (sent 0x000001004108000C
      (start 0x1F80 ⟨(f32x4 0x3F800000 0x40000000 0x7FC00000 0x40400000), junk, junk, junk⟩ ⟨(f32x4 0x40000000 0x40000000 0x3F800000 0x3F800000), junk, junk, junk⟩ untouched))
      = some (⟨(f32x4 0xFFFFFFFF 0x00000000 0x00000000 0x00000000), junk, junk, junk⟩, 0x1F81, []) := by
  decide +kernel

/-- R78, the example of 41_compare.md. -/
theorem test_cmppd :
    after 1 (sent 0x000000004108008C
      (start 0x1F80 ⟨(f64x2 0x0000000000000000 0x7FF8000000000000), junk, junk, junk⟩ ⟨(f64x2 0x8000000000000000 0x7FF8000000000000), junk, junk, junk⟩ untouched))
      = some (⟨(f64x2 0xFFFFFFFFFFFFFFFF 0x0000000000000000), junk, junk, junk⟩, 0x1F80, []) := by
  decide +kernel

/-- R79, the example of 41_compare.md. -/
theorem test_cmpss :
    after 1 (sent 0x000003004108004C
      (start 0x1F80 ⟨(f32x4 0x7FC00000 0x3F800000 0x40000000 0x40400000), junk, junk, junk⟩ ⟨(f32x4 0x3F800000 0x55555555 0x55555555 0x55555555), junk, junk, junk⟩ untouched))
      = some (⟨(f32x4 0xFFFFFFFF 0x3F800000 0x40000000 0x40400000), junk, junk, junk⟩, 0x1F80, []) := by
  decide +kernel

/-- R80, the example of 41_compare.md. -/
theorem test_cmpsd :
    after 1 (sent 0x00001300410800CC
      (start 0x1F80 ⟨(f64x2 0x7FF8000000000000 0x3FF0000000000000), junk, junk, junk⟩ ⟨(f64x2 0x3FF0000000000000 0x5555555555555555), junk, junk, junk⟩ untouched))
      = some (⟨(f64x2 0xFFFFFFFFFFFFFFFF 0x3FF0000000000000), junk, junk, junk⟩, 0x1F80, []) := by
  decide +kernel

/-- R81, the example of 41_compare.md. -/
theorem test_vcmpps :
    after 3 (sent 0x000013004118040C
      (start 0x1F80 ⟨(f32x4 0x7FC00000 0x3F800000 0x40000000 0x00000001), junk, junk, junk⟩ ⟨(f32x4 0x3F800000 0x3F800000 0x7F800001 0x3F800000), junk, junk, junk⟩ untouched))
      = some (⟨(f32x4 0xFFFFFFFF 0x00000000 0xFFFFFFFF 0x00000000), 0, 0, 0⟩, 0x1F83, []) := by
  decide +kernel

/-- R82, the example of 41_compare.md. -/
theorem test_vcmppd :
    after 3 (sent 0x00001D004118058C
      (start 0x1F80 ⟨(f64x2 0x3FF0000000000000 0x4000000000000000), (f64x2 0x7FF0000000000000 0xFFF0000000000000), junk, junk⟩ ⟨(f64x2 0x4000000000000000 0x4000000000000000), (f64x2 0x7FE1CCF385EBC8A0 0xFFF0000000000000), junk, junk⟩ untouched))
      = some (⟨(f64x2 0x0000000000000000 0xFFFFFFFFFFFFFFFF), (f64x2 0xFFFFFFFFFFFFFFFF 0xFFFFFFFFFFFFFFFF), 0, 0⟩, 0x1F80, []) := by
  decide +kernel

/-- R83, the example of 41_compare.md. -/
theorem test_vcmpss :
    after 3 (sent 0x00000F004118044C
      (start 0x1F80 ⟨(f32x4 0x7F800001 0x3F800000 0x40000000 0x40400000), junk, junk, junk⟩ ⟨(f32x4 0x3F800000 0x55555555 0x55555555 0x55555555), junk, junk, junk⟩ untouched))
      = some (⟨(f32x4 0xFFFFFFFF 0x3F800000 0x40000000 0x40400000), 0, 0, 0⟩, 0x1F81, []) := by
  decide +kernel

/-- R84, the example of 41_compare.md. -/
theorem test_vcmpsd :
    after 3 (sent 0x00001B00411804CC
      (start 0x1F80 ⟨(f64x2 0x3FF0000000000000 0x4000000000000000), junk, junk, junk⟩ ⟨(f64x2 0x7FF8000000000000 0x5555555555555555), junk, junk, junk⟩ untouched))
      = some (⟨(f64x2 0x0000000000000000 0x4000000000000000), 0, 0, 0⟩, 0x1F81, []) := by
  decide +kernel

/-- R101, the example of 43_elementwise.md. -/
theorem test_addps :
    after 1 (sent 0x0000000041080000
      (start 0x1F80 ⟨(f32x4 0x3F800000 0x40200000 0xBF800000 0x00000000), junk, junk, junk⟩ ⟨(f32x4 0x40000000 0x3E800000 0x3F800000 0x80000000), junk, junk, junk⟩ untouched))
      = some (⟨(f32x4 0x40400000 0x40300000 0x00000000 0x00000000), junk, junk, junk⟩, 0x1F80, []) := by
  decide +kernel

/-- R102, the example of 43_elementwise.md. -/
theorem test_addpd :
    after 1 (sent 0x0000000041080080
      (start 0x1F80 ⟨(f64x2 0x3FF0000000000000 0x7FE1CCF385EBC8A0), junk, junk, junk⟩ ⟨(f64x2 0x3CA0000000000000 0x7FE1CCF385EBC8A0), junk, junk, junk⟩ untouched))
      = some (⟨(f64x2 0x3FF0000000000000 0x7FF0000000000000), junk, junk, junk⟩, 0x1FA8, []) := by
  decide +kernel

/-- R103, the example of 43_elementwise.md. -/
theorem test_addss :
    after 1 (sent 0x0000000041080040
      (start 0x1F80 ⟨(f32x4 0x3F800000 0x40E00000 0x41000000 0x41100000), junk, junk, junk⟩ ⟨(f32x4 0x33800000 0x55555555 0x55555555 0x55555555), junk, junk, junk⟩ untouched))
      = some (⟨(f32x4 0x3F800000 0x40E00000 0x41000000 0x41100000), junk, junk, junk⟩, 0x1FA0, []) := by
  decide +kernel

/-- R104, the example of 43_elementwise.md. -/
theorem test_addsd :
    after 1 (sent 0x00000000410800C0
      (start 0x1F80 ⟨(f64x2 0x8000000000000000 0x4014000000000000), junk, junk, junk⟩ ⟨(f64x2 0x8000000000000000 0x5555555555555555), junk, junk, junk⟩ untouched))
      = some (⟨(f64x2 0x8000000000000000 0x4014000000000000), junk, junk, junk⟩, 0x1F80, []) := by
  decide +kernel

/-- R105, the example of 43_elementwise.md. -/
theorem test_vaddps :
    after 3 (sent 0x0000000041180500
      (start 0x1F80 ⟨(f32x4 0x3F800000 0x40000000 0x40400000 0x40800000), (f32x4 0x40A00000 0x40C00000 0x40E00000 0x41000000), junk, junk⟩ ⟨(f32x4 0x3F000000 0x3F000000 0x3F000000 0x3F000000), (f32x4 0x3F000000 0x3F000000 0x3F000000 0x3F000000), junk, junk⟩ untouched))
      = some (⟨(f32x4 0x3FC00000 0x40200000 0x40600000 0x40900000), (f32x4 0x40B00000 0x40D00000 0x40F00000 0x41080000), 0, 0⟩, 0x1F80, []) := by
  decide +kernel

/-- R105, the example of 43_elementwise.md. -/
theorem test_vaddps_2 :
    after 3 (sent 0x0000000041198400
      (start 0x1F80 ⟨(f32x4 0x3F800000 0x40000000 0x40400000 0x40800000), junk, junk, junk⟩ ⟨(f32x4 0x3F800000 0x3F800000 0x3F800000 0x3F800000), junk, junk, junk⟩ ⟨(f32x4 0x41100000 0x41100000 0x41100000 0x41100000), junk, junk, junk⟩ 0x5))
      = some (⟨(f32x4 0x40000000 0x00000000 0x40800000 0x00000000), 0, 0, 0⟩, 0x1F80, []) := by
  decide +kernel

/-- R106, the example of 43_elementwise.md. -/
theorem test_vaddpd :
    after 3 (sent 0x0000000041180480
      (start 0x3F80 ⟨(f64x2 0x3FF0000000000000 0xBFF0000000000000), junk, junk, junk⟩ ⟨(f64x2 0xBFF0000000000000 0x3FF0000000000000), junk, junk, junk⟩ untouched))
      = some (⟨(f64x2 0x8000000000000000 0x8000000000000000), 0, 0, 0⟩, 0x3F80, []) := by
  decide +kernel

/-- R107, the example of 43_elementwise.md. -/
theorem test_vaddss :
    after 3 (sent 0x0000000041180440
      (start 0x1F80 ⟨(f32x4 0x41200000 0x41A00000 0x41F00000 0x42200000), junk, junk, junk⟩ ⟨(f32x4 0x7F800001 0x55555555 0x55555555 0x55555555), junk, junk, junk⟩ untouched))
      = some (⟨(f32x4 0x7FC00001 0x41A00000 0x41F00000 0x42200000), 0, 0, 0⟩, 0x1F81, []) := by
  decide +kernel

/-- R108, the example of 43_elementwise.md. -/
theorem test_vaddsd :
    after 3 (sent 0x00000000411804C0
      (start 0x1F80 ⟨(f64x2 0xFFF0000000000000 0x4008000000000000), junk, junk, junk⟩ ⟨(f64x2 0x7FF0000000000000 0x5555555555555555), junk, junk, junk⟩ untouched))
      = some (⟨(f64x2 0xFFF8000000000000 0x4008000000000000), 0, 0, 0⟩, 0x1F81, []) := by
  decide +kernel

/-- R109, the example of 43_elementwise.md. -/
theorem test_subps :
    after 1 (sent 0x0000000041080001
      (start 0x1F80 ⟨(f32x4 0x40A00000 0x3F800000 0x7F800000 0x00000003), junk, junk, junk⟩ ⟨(f32x4 0x40400000 0x3F800000 0x7F800000 0x00000001), junk, junk, junk⟩ untouched))
      = some (⟨(f32x4 0x40000000 0x00000000 0xFFC00000 0x00000002), junk, junk, junk⟩, 0x1F83, []) := by
  decide +kernel

/-- R110, the example of 43_elementwise.md. -/
theorem test_subpd :
    after 1 (sent 0x0000000041080081
      (start 0x7F80 ⟨(f64x2 0x3FF0000000000000 0x0000000000000000), junk, junk, junk⟩ ⟨(f64x2 0x3C30000000000000 0x0000000000000000), junk, junk, junk⟩ untouched))
      = some (⟨(f64x2 0x3FEFFFFFFFFFFFFF 0x0000000000000000), junk, junk, junk⟩, 0x7FA0, []) := by
  decide +kernel

/-- R111, the example of 43_elementwise.md. -/
theorem test_subss :
    after 1 (sent 0x0000000041080041
      (start 0x1F80 ⟨(f32x4 0x3F800000 0x40000000 0x40400000 0x40800000), junk, junk, junk⟩ ⟨(f32x4 0x7FC00005 0x55555555 0x55555555 0x55555555), junk, junk, junk⟩ untouched))
      = some (⟨(f32x4 0x7FC00005 0x40000000 0x40400000 0x40800000), junk, junk, junk⟩, 0x1F80, []) := by
  decide +kernel

/-- R112, the example of 43_elementwise.md. -/
theorem test_subsd :
    after 1 (sent 0x00000000410800C1
      (start 0x1F80 ⟨(f64x2 0x7FE8000000000000 0x401C000000000000), junk, junk, junk⟩ ⟨(f64x2 0xFFE8000000000000 0x5555555555555555), junk, junk, junk⟩ untouched))
      = some (⟨(f64x2 0x7FF0000000000000 0x401C000000000000), junk, junk, junk⟩, 0x1FA8, []) := by
  decide +kernel

/-- R113, the example of 43_elementwise.md. -/
theorem test_vsubps :
    after 3 (sent 0x0000000041180501
      (start 0x1F80 ⟨(f32x4 0x41000000 0x40E00000 0x40C00000 0x40A00000), (f32x4 0x40800000 0x40400000 0x40000000 0x3F800000), junk, junk⟩ ⟨(f32x4 0x3F800000 0x40000000 0x40400000 0x40800000), (f32x4 0x40A00000 0x40C00000 0x40E00000 0x41000000), junk, junk⟩ untouched))
      = some (⟨(f32x4 0x40E00000 0x40A00000 0x40400000 0x3F800000), (f32x4 0xBF800000 0xC0400000 0xC0A00000 0xC0E00000), 0, 0⟩, 0x1F80, []) := by
  decide +kernel

/-- R114, the example of 43_elementwise.md. -/
theorem test_vsubpd :
    after 3 (sent 0x0000000041180581
      (start 0x1F80 ⟨(f64x2 0x3FF0000000000000 0x4000000000000000), (f64x2 0x4008000000000000 0x4010000000000000), junk, junk⟩ ⟨(f64x2 0x4010000000000000 0x4008000000000000), (f64x2 0x4000000000000000 0x3FF0000000000000), junk, junk⟩ untouched))
      = some (⟨(f64x2 0xC008000000000000 0xBFF0000000000000), (f64x2 0x3FF0000000000000 0x4008000000000000), 0, 0⟩, 0x1F80, []) := by
  decide +kernel

/-- R115, the example of 43_elementwise.md. -/
theorem test_vsubss :
    after 3 (sent 0x0000000041180441
      (start 0x3F80 ⟨(f32x4 0x3F800000 0x40000000 0x40400000 0x40800000), junk, junk, junk⟩ ⟨(f32x4 0x3F800000 0x55555555 0x55555555 0x55555555), junk, junk, junk⟩ untouched))
      = some (⟨(f32x4 0x80000000 0x40000000 0x40400000 0x40800000), 0, 0, 0⟩, 0x3F80, []) := by
  decide +kernel

/-- R116, the example of 43_elementwise.md. -/
theorem test_vsubsd :
    after 3 (sent 0x00000000411804C1
      (start 0x1FC0 ⟨(f64x2 0x0000000000000001 0x4022000000000000), junk, junk, junk⟩ ⟨(f64x2 0x0000000000000000 0x5555555555555555), junk, junk, junk⟩ untouched))
      = some (⟨(f64x2 0x0000000000000000 0x4022000000000000), 0, 0, 0⟩, 0x1FC0, []) := by
  decide +kernel

/-- R117, the example of 43_elementwise.md. -/
theorem test_mulps :
    after 1 (sent 0x0000000041080002
      (start 0x1F80 ⟨(f32x4 0x40000000 0x60AD78EC 0x00000000 0xC0400000), junk, junk, junk⟩ ⟨(f32x4 0x40400000 0x60AD78EC 0x7F800000 0x3F000000), junk, junk, junk⟩ untouched))
      = some (⟨(f32x4 0x40C00000 0x7F800000 0xFFC00000 0xBFC00000), junk, junk, junk⟩, 0x1FA9, []) := by
  decide +kernel

/-- R118, the example of 43_elementwise.md. -/
theorem test_mulpd :
    after 1 (sent 0x0000000041080082
      (start 0x1F80 ⟨(f64x2 0x0010000000000000 0x4008000000000000), junk, junk, junk⟩ ⟨(f64x2 0x3FE0000000000000 0x8000000000000000), junk, junk, junk⟩ untouched))
      = some (⟨(f64x2 0x0008000000000000 0x8000000000000000), junk, junk, junk⟩, 0x1F80, []) := by
  decide +kernel

/-- R119, the example of 43_elementwise.md. -/
theorem test_mulss :
    after 1 (sent 0x0000000041080042
      (start 0x1F80 ⟨(f32x4 0x00800001 0x40A00000 0x40C00000 0x40E00000), junk, junk, junk⟩ ⟨(f32x4 0x3F000000 0x55555555 0x55555555 0x55555555), junk, junk, junk⟩ untouched))
      = some (⟨(f32x4 0x00400000 0x40A00000 0x40C00000 0x40E00000), junk, junk, junk⟩, 0x1FB0, []) := by
  decide +kernel

/-- R119, the example of 43_elementwise.md. -/
theorem test_mulss_2 :
    after 1 (sent 0x0000000041080042
      (start 0x1780 ⟨(f32x4 0x00800000 0x40A00000 0x40C00000 0x40E00000), junk, junk, junk⟩ ⟨(f32x4 0x3F000000 0x55555555 0x55555555 0x55555555), junk, junk, junk⟩ untouched))
      = some (⟨(f32x4 0x00800000 0x40A00000 0x40C00000 0x40E00000), junk, junk, junk⟩, 0x1790, [ExcVector.ud]) := by
  decide +kernel

/-- R120, the example of 43_elementwise.md. -/
theorem test_mulsd :
    after 1 (sent 0x00000000410800C2
      (start 0x9F80 ⟨(f64x2 0x0010000000000000 0x3FF0000000000000), junk, junk, junk⟩ ⟨(f64x2 0x3FD0000000000000 0x5555555555555555), junk, junk, junk⟩ untouched))
      = some (⟨(f64x2 0x0000000000000000 0x3FF0000000000000), junk, junk, junk⟩, 0x9FB0, []) := by
  decide +kernel

/-- R121, the example of 43_elementwise.md. -/
theorem test_vmulps :
    after 3 (sent 0x0000000041190402
      (start 0x1F80 ⟨(f32x4 0x40000000 0x40400000 0x40800000 0x40A00000), junk, junk, junk⟩ ⟨(f32x4 0x41200000 0x7F7FC99E 0x41200000 0x7F7FC99E), junk, junk, junk⟩ ⟨(f32x4 0xBF800000 0xBF800000 0xBF800000 0xBF800000), junk, junk, junk⟩ 0x5))
      = some (⟨(f32x4 0x41A00000 0xBF800000 0x42200000 0xBF800000), 0, 0, 0⟩, 0x1F80, []) := by
  decide +kernel

/-- R122, the example of 43_elementwise.md. -/
theorem test_vmulpd :
    after 3 (sent 0x0000000041183C82
      (start 0x1F80 ⟨(f64x2 0x3FD5555555555555 0x3FF199999999999A), junk, junk, junk⟩ ⟨(f64x2 0x4008000000000000 0x3FF199999999999A), junk, junk, junk⟩ untouched))
      = some (⟨(f64x2 0x3FEFFFFFFFFFFFFF 0x3FF35C28F5C28F5D), 0, 0, 0⟩, 0x1F80, []) := by
  decide +kernel

/-- R123, the example of 43_elementwise.md. -/
theorem test_vmulss :
    after 3 (sent 0x0000000041180442
      (start 0x1F80 ⟨(f32x4 0x3FC00000 0x41200000 0x41A00000 0x41F00000), junk, junk, junk⟩ ⟨(f32x4 0xC0000000 0x55555555 0x55555555 0x55555555), junk, junk, junk⟩ untouched))
      = some (⟨(f32x4 0xC0400000 0x41200000 0x41A00000 0x41F00000), 0, 0, 0⟩, 0x1F80, []) := by
  decide +kernel

/-- R124, the example of 43_elementwise.md. -/
theorem test_vmulsd :
    after 3 (sent 0x00000000411804C2
      (start 0x1F80 ⟨(f64x2 0x7FF0000000000000 0x4010000000000000), junk, junk, junk⟩ ⟨(f64x2 0x0000000000000001 0x5555555555555555), junk, junk, junk⟩ untouched))
      = some (⟨(f64x2 0x7FF0000000000000 0x4010000000000000), 0, 0, 0⟩, 0x1F82, []) := by
  decide +kernel

/-- R125, the example of 43_elementwise.md. -/
theorem test_divps :
    after 1 (sent 0x0000000041080003
      (start 0x1F80 ⟨(f32x4 0x3F800000 0x00000000 0x7F800000 0x3F800000), junk, junk, junk⟩ ⟨(f32x4 0x00000000 0x00000000 0x7F800000 0x40400000), junk, junk, junk⟩ untouched))
      = some (⟨(f32x4 0x7F800000 0xFFC00000 0xFFC00000 0x3EAAAAAB), junk, junk, junk⟩, 0x1FA5, []) := by
  decide +kernel

/-- R126, the example of 43_elementwise.md. -/
theorem test_divpd :
    after 1 (sent 0x0000000041080083
      (start 0x1F80 ⟨(f64x2 0xC018000000000000 0x3FF0000000000000), junk, junk, junk⟩ ⟨(f64x2 0x4008000000000000 0xFFF0000000000000), junk, junk, junk⟩ untouched))
      = some (⟨(f64x2 0xC000000000000000 0x8000000000000000), junk, junk, junk⟩, 0x1F80, []) := by
  decide +kernel

/-- R127, the example of 43_elementwise.md. -/
theorem test_divss :
    after 1 (sent 0x0000000041080043
      (start 0x1F80 ⟨(f32x4 0x3F800000 0x40000000 0x40400000 0x40800000), junk, junk, junk⟩ ⟨(f32x4 0x00000000 0x55555555 0x55555555 0x55555555), junk, junk, junk⟩ untouched))
      = some (⟨(f32x4 0x7F800000 0x40000000 0x40400000 0x40800000), junk, junk, junk⟩, 0x1F84, []) := by
  decide +kernel

/-- R128, the example of 43_elementwise.md. -/
theorem test_divsd :
    after 1 (sent 0x00000000410800C3
      (start 0x1FC0 ⟨(f64x2 0x3FF0000000000000 0x4000000000000000), junk, junk, junk⟩ ⟨(f64x2 0x0000000000000001 0x5555555555555555), junk, junk, junk⟩ untouched))
      = some (⟨(f64x2 0x7FF0000000000000 0x4000000000000000), junk, junk, junk⟩, 0x1FC4, []) := by
  decide +kernel

/-- R129, the example of 43_elementwise.md. -/
theorem test_vdivps :
    after 3 (sent 0x0000000041180503
      (start 0x1F80 ⟨(f32x4 0x3F800000 0x40000000 0x40400000 0x40800000), (f32x4 0x40A00000 0x40C00000 0x40E00000 0x41000000), junk, junk⟩ ⟨(f32x4 0x40000000 0x40000000 0x40000000 0x40000000), (f32x4 0x40000000 0x40000000 0x40000000 0x40000000), junk, junk⟩ untouched))
      = some (⟨(f32x4 0x3F000000 0x3F800000 0x3FC00000 0x40000000), (f32x4 0x40200000 0x40400000 0x40600000 0x40800000), 0, 0⟩, 0x1F80, []) := by
  decide +kernel

/-- R130, the example of 43_elementwise.md. -/
theorem test_vdivpd :
    after 3 (sent 0x0000000041180483
      (start 0x1F80 ⟨(f64x2 0x01A56E1FC2F8F359 0x3FF0000000000000), junk, junk, junk⟩ ⟨(f64x2 0x7E37E43C8800759C 0x4024000000000000), junk, junk, junk⟩ untouched))
      = some (⟨(f64x2 0x0000000000000000 0x3FB999999999999A), 0, 0, 0⟩, 0x1FB0, []) := by
  decide +kernel

/-- R131, the example of 43_elementwise.md. -/
theorem test_vdivss :
    after 3 (sent 0x0000000041180443
      (start 0x1F80 ⟨(f32x4 0xBF800000 0x40000000 0x40400000 0x40800000), junk, junk, junk⟩ ⟨(f32x4 0x80000000 0x55555555 0x55555555 0x55555555), junk, junk, junk⟩ untouched))
      = some (⟨(f32x4 0x7F800000 0x40000000 0x40400000 0x40800000), 0, 0, 0⟩, 0x1F84, []) := by
  decide +kernel

/-- R132, the example of 43_elementwise.md. -/
theorem test_vdivsd :
    after 3 (sent 0x00000000411844C3
      (start 0x1F80 ⟨(f64x2 0x3FF0000000000000 0x4000000000000000), junk, junk, junk⟩ ⟨(f64x2 0x0000000000000000 0x5555555555555555), junk, junk, junk⟩ untouched))
      = some (⟨(f64x2 0x7FF0000000000000 0x4000000000000000), 0, 0, 0⟩, 0x1F80, []) := by
  decide +kernel

/-- R136, the example of 44_minmax_sqrt_scalef.md. -/
theorem test_minps :
    after 1 (sent 0x0000000041080004
      (start 0x1F80 ⟨(f32x4 0x3F800000 0x7FC00000 0x00000000 0x40A00000), junk, junk, junk⟩ ⟨(f32x4 0x40000000 0x40400000 0x80000000 0xFFC00001), junk, junk, junk⟩ untouched))
      = some (⟨(f32x4 0x3F800000 0x40400000 0x80000000 0xFFC00001), junk, junk, junk⟩, 0x1F81, []) := by
  decide +kernel

/-- R137, the example of 44_minmax_sqrt_scalef.md. -/
theorem test_minpd :
    after 1 (sent 0x0000000041080084
      (start 0x1F80 ⟨(f64x2 0xFFF0000000000000 0x4000000000000000), junk, junk, junk⟩ ⟨(f64x2 0x0000000000000000 0x4000000000000000), junk, junk, junk⟩ untouched))
      = some (⟨(f64x2 0xFFF0000000000000 0x4000000000000000), junk, junk, junk⟩, 0x1F80, []) := by
  decide +kernel

/-- R138, the example of 44_minmax_sqrt_scalef.md. -/
theorem test_minss :
    after 1 (sent 0x0000000041080044
      (start 0x1F80 ⟨(f32x4 0x00000001 0x40000000 0x40400000 0x40800000), junk, junk, junk⟩ ⟨(f32x4 0x3F800000 0x55555555 0x55555555 0x55555555), junk, junk, junk⟩ untouched))
      = some (⟨(f32x4 0x00000001 0x40000000 0x40400000 0x40800000), junk, junk, junk⟩, 0x1F82, []) := by
  decide +kernel

/-- R139, the example of 44_minmax_sqrt_scalef.md. -/
theorem test_minsd :
    after 1 (sent 0x00000000410800C4
      (start 0x1F80 ⟨(f64x2 0x3FF0000000000000 0x4000000000000000), junk, junk, junk⟩ ⟨(f64x2 0x7FF0000000000001 0x5555555555555555), junk, junk, junk⟩ untouched))
      = some (⟨(f64x2 0x7FF0000000000001 0x4000000000000000), junk, junk, junk⟩, 0x1F81, []) := by
  decide +kernel

/-- R140, the example of 44_minmax_sqrt_scalef.md. -/
theorem test_vminps :
    after 3 (sent 0x0000000041180504
      (start 0x1F80 ⟨(f32x4 0x3F800000 0x40A00000 0x40400000 0x40E00000), (f32x4 0xBF800000 0xC0A00000 0x00000000 0x41000000), junk, junk⟩ ⟨(f32x4 0x40800000 0x40000000 0x40C00000 0x00000000), (f32x4 0xC0000000 0xC0800000 0x80000000 0x41000000), junk, junk⟩ untouched))
      = some (⟨(f32x4 0x3F800000 0x40000000 0x40400000 0x00000000), (f32x4 0xC0000000 0xC0A00000 0x80000000 0x41000000), 0, 0⟩, 0x1F80, []) := by
  decide +kernel

/-- R141, the example of 44_minmax_sqrt_scalef.md. -/
theorem test_vminpd :
    after 3 (sent 0x0000000041180484
      (start 0x1FC0 ⟨(f64x2 0x8000000000000001 0x3FF0000000000000), junk, junk, junk⟩ ⟨(f64x2 0x0000000000000000 0x3FF0000000000000), junk, junk, junk⟩ untouched))
      = some (⟨(f64x2 0x0000000000000000 0x3FF0000000000000), 0, 0, 0⟩, 0x1FC0, []) := by
  decide +kernel

/-- R142, the example of 44_minmax_sqrt_scalef.md. -/
theorem test_vminss :
    after 3 (sent 0x0000000041180444
      (start 0x1F80 ⟨(f32x4 0x40400000 0x3F800000 0x40000000 0x40400000), junk, junk, junk⟩ ⟨(f32x4 0xC0400000 0x55555555 0x55555555 0x55555555), junk, junk, junk⟩ untouched))
      = some (⟨(f32x4 0xC0400000 0x3F800000 0x40000000 0x40400000), 0, 0, 0⟩, 0x1F80, []) := by
  decide +kernel

/-- R143, the example of 44_minmax_sqrt_scalef.md. -/
theorem test_vminsd :
    after 3 (sent 0x00000000411804C4
      (start 0x1F80 ⟨(f64x2 0x0000000000000000 0x3FF0000000000000), junk, junk, junk⟩ ⟨(f64x2 0x8000000000000000 0x5555555555555555), junk, junk, junk⟩ untouched))
      = some (⟨(f64x2 0x8000000000000000 0x3FF0000000000000), 0, 0, 0⟩, 0x1F80, []) := by
  decide +kernel

/-- R144, the example of 44_minmax_sqrt_scalef.md. -/
theorem test_maxps :
    after 1 (sent 0x0000000041080005
      (start 0x1F80 ⟨(f32x4 0x3F800000 0x7FC00000 0x80000000 0x40A00000), junk, junk, junk⟩ ⟨(f32x4 0x40000000 0x40400000 0x00000000 0x40800000), junk, junk, junk⟩ untouched))
      = some (⟨(f32x4 0x40000000 0x40400000 0x00000000 0x40A00000), junk, junk, junk⟩, 0x1F81, []) := by
  decide +kernel

/-- R145, the example of 44_minmax_sqrt_scalef.md. -/
theorem test_maxpd :
    after 1 (sent 0x0000000041080085
      (start 0x1F80 ⟨(f64x2 0x0000000000000000 0x8000000000000000), junk, junk, junk⟩ ⟨(f64x2 0x8000000000000000 0x0000000000000000), junk, junk, junk⟩ untouched))
      = some (⟨(f64x2 0x8000000000000000 0x0000000000000000), junk, junk, junk⟩, 0x1F80, []) := by
  decide +kernel

/-- R146, the example of 44_minmax_sqrt_scalef.md. -/
theorem test_maxss :
    after 1 (sent 0x0000000041080045
      (start 0x1F80 ⟨(f32x4 0x7F800001 0x40000000 0x40400000 0x40800000), junk, junk, junk⟩ ⟨(f32x4 0x3F800000 0x55555555 0x55555555 0x55555555), junk, junk, junk⟩ untouched))
      = some (⟨(f32x4 0x3F800000 0x40000000 0x40400000 0x40800000), junk, junk, junk⟩, 0x1F81, []) := by
  decide +kernel

/-- R147, the example of 44_minmax_sqrt_scalef.md. -/
theorem test_maxsd :
    after 1 (sent 0x00000000410800C5
      (start 0x1F80 ⟨(f64x2 0xBFF0000000000000 0x4014000000000000), junk, junk, junk⟩ ⟨(f64x2 0xC000000000000000 0x5555555555555555), junk, junk, junk⟩ untouched))
      = some (⟨(f64x2 0xBFF0000000000000 0x4014000000000000), junk, junk, junk⟩, 0x1F80, []) := by
  decide +kernel

/-- R148, the example of 44_minmax_sqrt_scalef.md. -/
theorem test_vmaxps :
    after 3 (sent 0x0000000041180505
      (start 0x1F80 ⟨(f32x4 0x3F800000 0x40A00000 0x40400000 0x40E00000), (f32x4 0xBF800000 0xC0A00000 0x00000000 0x41000000), junk, junk⟩ ⟨(f32x4 0x40800000 0x40000000 0x40C00000 0x00000000), (f32x4 0xC0000000 0xC0800000 0x80000000 0x41000000), junk, junk⟩ untouched))
      = some (⟨(f32x4 0x40800000 0x40A00000 0x40C00000 0x40E00000), (f32x4 0xBF800000 0xC0800000 0x80000000 0x41000000), 0, 0⟩, 0x1F80, []) := by
  decide +kernel

/-- R149, the example of 44_minmax_sqrt_scalef.md. -/
theorem test_vmaxpd :
    after 3 (sent 0x0000000041180485
      (start 0x1F80 ⟨(f64x2 0x7FF0000000000000 0x0000000000000001), junk, junk, junk⟩ ⟨(f64x2 0x3FF0000000000000 0x0000000000000000), junk, junk, junk⟩ untouched))
      = some (⟨(f64x2 0x7FF0000000000000 0x0000000000000001), 0, 0, 0⟩, 0x1F82, []) := by
  decide +kernel

/-- R150, the example of 44_minmax_sqrt_scalef.md. -/
theorem test_vmaxss :
    after 3 (sent 0x0000000041180445
      (start 0x1F80 ⟨(f32x4 0x40400000 0x3F800000 0x40000000 0x40400000), junk, junk, junk⟩ ⟨(f32x4 0xC0400000 0x55555555 0x55555555 0x55555555), junk, junk, junk⟩ untouched))
      = some (⟨(f32x4 0x40400000 0x3F800000 0x40000000 0x40400000), 0, 0, 0⟩, 0x1F80, []) := by
  decide +kernel

/-- R151, the example of 44_minmax_sqrt_scalef.md. -/
theorem test_vmaxsd :
    after 3 (sent 0x00000000411804C5
      (start 0x1F80 ⟨(f64x2 0x3FF0000000000000 0x3FF0000000000000), junk, junk, junk⟩ ⟨(f64x2 0x7FF8000000000000 0x5555555555555555), junk, junk, junk⟩ untouched))
      = some (⟨(f64x2 0x7FF8000000000000 0x3FF0000000000000), 0, 0, 0⟩, 0x1F81, []) := by
  decide +kernel

/-- R152, the example of 44_minmax_sqrt_scalef.md. -/
theorem test_sqrtps :
    after 1 (sent 0x0000000041080006
      (start 0x1F80 untouched ⟨(f32x4 0x40800000 0x40000000 0xBF800000 0x80000000), junk, junk, junk⟩ untouched))
      = some (⟨(f32x4 0x40000000 0x3FB504F3 0xFFC00000 0x80000000), junk, junk, junk⟩, 0x1FA1, []) := by
  decide +kernel

/-- R153, the example of 44_minmax_sqrt_scalef.md. -/
theorem test_sqrtpd :
    after 1 (sent 0x0000000041080086
      (start 0x1F80 untouched ⟨(f64x2 0x7FF0000000000000 0x0000000000000001), junk, junk, junk⟩ untouched))
      = some (⟨(f64x2 0x7FF0000000000000 0x1E60000000000000), junk, junk, junk⟩, 0x1F82, []) := by
  decide +kernel

/-- R154, the example of 44_minmax_sqrt_scalef.md. -/
theorem test_sqrtss :
    after 1 (sent 0x0000000041080046
      (start 0x1F80 ⟨(f32x4 0x3F800000 0x40000000 0x40400000 0x40800000), junk, junk, junk⟩ ⟨(f32x4 0xFF800001 0x55555555 0x55555555 0x55555555), junk, junk, junk⟩ untouched))
      = some (⟨(f32x4 0xFFC00001 0x40000000 0x40400000 0x40800000), junk, junk, junk⟩, 0x1F81, []) := by
  decide +kernel

/-- R155, the example of 44_minmax_sqrt_scalef.md. -/
theorem test_sqrtsd :
    after 1 (sent 0x00000000410800C6
      (start 0x1F80 ⟨(f64x2 0x3FF0000000000000 0x4000000000000000), junk, junk, junk⟩ ⟨(f64x2 0x4022000000000000 0x5555555555555555), junk, junk, junk⟩ untouched))
      = some (⟨(f64x2 0x4008000000000000 0x4000000000000000), junk, junk, junk⟩, 0x1F80, []) := by
  decide +kernel

/-- R156, the example of 44_minmax_sqrt_scalef.md. -/
theorem test_vsqrtps :
    after 3 (sent 0x0000000040180506
      (start 0x1F80 untouched ⟨(f32x4 0x3F800000 0x40800000 0x41100000 0x41800000), (f32x4 0x41C80000 0x42100000 0x42440000 0x42800000), junk, junk⟩ untouched))
      = some (⟨(f32x4 0x3F800000 0x40000000 0x40400000 0x40800000), (f32x4 0x40A00000 0x40C00000 0x40E00000 0x41000000), 0, 0⟩, 0x1F80, []) := by
  decide +kernel

/-- R157, the example of 44_minmax_sqrt_scalef.md. -/
theorem test_vsqrtpd :
    after 3 (sent 0x0000000040180486
      (start 0x1F80 untouched ⟨(f64x2 0xFFF0000000000000 0x4000000000000000), junk, junk, junk⟩ untouched))
      = some (⟨(f64x2 0xFFF8000000000000 0x3FF6A09E667F3BCD), 0, 0, 0⟩, 0x1FA1, []) := by
  decide +kernel

/-- R158, the example of 44_minmax_sqrt_scalef.md. -/
theorem test_vsqrtss :
    after 3 (sent 0x0000000041180446
      (start 0x1F80 ⟨(f32x4 0x40E00000 0x3F800000 0x40000000 0x40400000), junk, junk, junk⟩ ⟨(f32x4 0x3E800000 0x55555555 0x55555555 0x55555555), junk, junk, junk⟩ untouched))
      = some (⟨(f32x4 0x3F000000 0x3F800000 0x40000000 0x40400000), 0, 0, 0⟩, 0x1F80, []) := by
  decide +kernel

/-- R159, the example of 44_minmax_sqrt_scalef.md. -/
theorem test_vsqrtsd :
    after 3 (sent 0x0000000041182CC6
      (start 0x1F80 ⟨(f64x2 0x401C000000000000 0x3FF0000000000000), junk, junk, junk⟩ ⟨(f64x2 0x4000000000000000 0x5555555555555555), junk, junk, junk⟩ untouched))
      = some (⟨(f64x2 0x3FF6A09E667F3BCD 0x3FF0000000000000), 0, 0, 0⟩, 0x1F80, []) := by
  decide +kernel

/-- R160, the example of 44_minmax_sqrt_scalef.md. -/
theorem test_vscalefps :
    after 3 (sent 0x0000000041180407
      (start 0x1F80 ⟨(f32x4 0x40400000 0x3F800000 0x3F800000 0x00000000), junk, junk, junk⟩ ⟨(f32x4 0x402CCCCD 0xBF000000 0x43000000 0x7F800000), junk, junk, junk⟩ untouched))
      = some (⟨(f32x4 0x41400000 0x3F000000 0x7F800000 0xFFC00000), 0, 0, 0⟩, 0x1FA9, []) := by
  decide +kernel

/-- R161, the example of 44_minmax_sqrt_scalef.md. -/
theorem test_vscalefpd :
    after 3 (sent 0x0000000041180487
      (start 0x1F80 ⟨(f64x2 0xBFF8000000000000 0x7FF0000000000000), junk, junk, junk⟩ ⟨(f64x2 0xBFF0000000000000 0xFFF0000000000000), junk, junk, junk⟩ untouched))
      = some (⟨(f64x2 0xBFE8000000000000 0xFFF8000000000000), 0, 0, 0⟩, 0x1F81, []) := by
  decide +kernel

/-- R162, the example of 44_minmax_sqrt_scalef.md. -/
theorem test_vscalefss :
    after 3 (sent 0x0000000041180447
      (start 0x1F80 ⟨(f32x4 0x3F800000 0x40000000 0x40400000 0x40800000), junk, junk, junk⟩ ⟨(f32x4 0xC3160000 0x55555555 0x55555555 0x55555555), junk, junk, junk⟩ untouched))
      = some (⟨(f32x4 0x00000000 0x40000000 0x40400000 0x40800000), 0, 0, 0⟩, 0x1FB0, []) := by
  decide +kernel

/-- R163, the example of 44_minmax_sqrt_scalef.md. -/
theorem test_vscalefsd :
    after 3 (sent 0x00000000411804C7
      (start 0x1F80 ⟨(f64x2 0x4014000000000000 0x401C000000000000), junk, junk, junk⟩ ⟨(f64x2 0xC004000000000000 0x5555555555555555), junk, junk, junk⟩ untouched))
      = some (⟨(f64x2 0x3FE4000000000000 0x401C000000000000), 0, 0, 0⟩, 0x1F80, []) := by
  decide +kernel

/-- R168, the example of 45_round_horizontal.md. -/
theorem test_roundps :
    after 1 (sent 0x0000000041080008
      (start 0x1F80 untouched ⟨(f32x4 0x3FC00000 0x40200000 0xBECCCCCD 0x40400000), junk, junk, junk⟩ untouched))
      = some (⟨(f32x4 0x40000000 0x40000000 0x80000000 0x40400000), junk, junk, junk⟩, 0x1FA0, []) := by
  decide +kernel

/-- R169, the example of 45_round_horizontal.md. -/
theorem test_roundpd :
    after 1 (sent 0x0000090041080088
      (start 0x1F80 untouched ⟨(f64x2 0xBFF8000000000000 0x400599999999999A), junk, junk, junk⟩ untouched))
      = some (⟨(f64x2 0xC000000000000000 0x4000000000000000), junk, junk, junk⟩, 0x1F80, []) := by
  decide +kernel

/-- R170, the example of 45_round_horizontal.md. -/
theorem test_roundss :
    after 1 (sent 0x0000040041080048
      (start 0x5F80 ⟨(f32x4 0x00000000 0x3F800000 0x40000000 0x40400000), junk, junk, junk⟩ ⟨(f32x4 0x3F8CCCCD 0x55555555 0x55555555 0x55555555), junk, junk, junk⟩ untouched))
      = some (⟨(f32x4 0x40000000 0x3F800000 0x40000000 0x40400000), junk, junk, junk⟩, 0x5FA0, []) := by
  decide +kernel

/-- R171, the example of 45_round_horizontal.md. -/
theorem test_roundsd :
    after 1 (sent 0x00000B00410800C8
      (start 0x1F80 ⟨(f64x2 0x0000000000000000 0x3FF0000000000000), junk, junk, junk⟩ ⟨(f64x2 0xC01F99999999999A 0x5555555555555555), junk, junk, junk⟩ untouched))
      = some (⟨(f64x2 0xC01C000000000000 0x3FF0000000000000), junk, junk, junk⟩, 0x1F80, []) := by
  decide +kernel

/-- R172, the example of 45_round_horizontal.md. -/
theorem test_vroundps :
    after 3 (sent 0x0000020040180508
      (start 0x1F80 untouched ⟨(f32x4 0x3DCCCCCD 0xBDCCCCCD 0x3F800000 0x3FC00000), (f32x4 0xBFC00000 0x4AFFFFFF 0x7F800001 0x7F800000), junk, junk⟩ untouched))
      = some (⟨(f32x4 0x3F800000 0x80000000 0x3F800000 0x40000000), (f32x4 0xBF800000 0x4B000000 0x7FC00001 0x7F800000), 0, 0⟩, 0x1FA1, []) := by
  decide +kernel

/-- R173, the example of 45_round_horizontal.md. -/
theorem test_vroundpd :
    after 3 (sent 0x0000030040180488
      (start 0x1F80 untouched ⟨(f64x2 0xC007333333333333 0x7E37E43C8800759C), junk, junk, junk⟩ untouched))
      = some (⟨(f64x2 0xC000000000000000 0x7E37E43C8800759C), 0, 0, 0⟩, 0x1FA0, []) := by
  decide +kernel

/-- R174, the example of 45_round_horizontal.md. -/
theorem test_vroundss :
    after 3 (sent 0x0000080041180448
      (start 0x1F80 ⟨(f32x4 0x00000000 0x3F800000 0x40000000 0x40400000), junk, junk, junk⟩ ⟨(f32x4 0x40200000 0x55555555 0x55555555 0x55555555), junk, junk, junk⟩ untouched))
      = some (⟨(f32x4 0x40000000 0x3F800000 0x40000000 0x40400000), 0, 0, 0⟩, 0x1F80, []) := by
  decide +kernel

/-- R175, the example of 45_round_horizontal.md. -/
theorem test_vroundsd :
    after 3 (sent 0x00000100411804C8
      (start 0x1F80 ⟨(f64x2 0x0000000000000000 0x3FF0000000000000), junk, junk, junk⟩ ⟨(f64x2 0x7FF8000000000042 0x5555555555555555), junk, junk, junk⟩ untouched))
      = some (⟨(f64x2 0x7FF8000000000042 0x3FF0000000000000), 0, 0, 0⟩, 0x1F80, []) := by
  decide +kernel

/-- R176, the example of 45_round_horizontal.md. -/
theorem test_haddps :
    after 1 (sent 0x0000000041080009
      (start 0x1F80 ⟨(f32x4 0x3F800000 0x40000000 0x40400000 0x40800000), junk, junk, junk⟩ ⟨(f32x4 0x41200000 0x41A00000 0x41F00000 0x42200000), junk, junk, junk⟩ untouched))
      = some (⟨(f32x4 0x40400000 0x40E00000 0x41F00000 0x428C0000), junk, junk, junk⟩, 0x1F80, []) := by
  decide +kernel

/-- R177, the example of 45_round_horizontal.md. -/
theorem test_haddpd :
    after 1 (sent 0x0000000041080089
      (start 0x1F80 ⟨(f64x2 0x3FF8000000000000 0x4004000000000000), junk, junk, junk⟩ ⟨(f64x2 0x7FF0000000000000 0xFFF0000000000000), junk, junk, junk⟩ untouched))
      = some (⟨(f64x2 0x4010000000000000 0xFFF8000000000000), junk, junk, junk⟩, 0x1F81, []) := by
  decide +kernel

/-- R178, the example of 45_round_horizontal.md. -/
theorem test_vhaddps :
    after 3 (sent 0x0000000041180509
      (start 0x1F80 ⟨(f32x4 0x3F800000 0x40000000 0x40400000 0x40800000), (f32x4 0x40A00000 0x40C00000 0x40E00000 0x41000000), junk, junk⟩ ⟨(f32x4 0x41200000 0x41A00000 0x41F00000 0x42200000), (f32x4 0x42480000 0x42700000 0x428C0000 0x42A00000), junk, junk⟩ untouched))
      = some (⟨(f32x4 0x40400000 0x40E00000 0x41F00000 0x428C0000), (f32x4 0x41300000 0x41700000 0x42DC0000 0x43160000), 0, 0⟩, 0x1F80, []) := by
  decide +kernel

/-- R179, the example of 45_round_horizontal.md. -/
theorem test_vhaddpd :
    after 3 (sent 0x0000000041180589
      (start 0x1F80 ⟨(f64x2 0x3FF0000000000000 0x4000000000000000), (f64x2 0x4008000000000000 0x4010000000000000), junk, junk⟩ ⟨(f64x2 0x4024000000000000 0x4034000000000000), (f64x2 0x403E000000000000 0x4044000000000000), junk, junk⟩ untouched))
      = some (⟨(f64x2 0x4008000000000000 0x403E000000000000), (f64x2 0x401C000000000000 0x4051800000000000), 0, 0⟩, 0x1F80, []) := by
  decide +kernel

/-- R180, the example of 45_round_horizontal.md. -/
theorem test_hsubps :
    after 1 (sent 0x000000004108000A
      (start 0x1F80 ⟨(f32x4 0x40A00000 0x40000000 0x40400000 0x40800000), junk, junk, junk⟩ ⟨(f32x4 0x41200000 0x41A00000 0x42200000 0x41F00000), junk, junk, junk⟩ untouched))
      = some (⟨(f32x4 0x40400000 0xBF800000 0xC1200000 0x41200000), junk, junk, junk⟩, 0x1F80, []) := by
  decide +kernel

/-- R181, the example of 45_round_horizontal.md. -/
theorem test_hsubpd :
    after 1 (sent 0x000000004108008A
      (start 0x1F80 ⟨(f64x2 0x3FF0000000000000 0x3FF0000000000000), junk, junk, junk⟩ ⟨(f64x2 0x3FF0000000000000 0x3C30000000000000), junk, junk, junk⟩ untouched))
      = some (⟨(f64x2 0x0000000000000000 0x3FF0000000000000), junk, junk, junk⟩, 0x1FA0, []) := by
  decide +kernel

/-- R182, the example of 45_round_horizontal.md. -/
theorem test_vhsubps :
    after 3 (sent 0x000000004118050A
      (start 0x1F80 ⟨(f32x4 0x3F800000 0x40000000 0x40400000 0x40800000), (f32x4 0x40A00000 0x40C00000 0x40E00000 0x41000000), junk, junk⟩ ⟨(f32x4 0x41200000 0x41A00000 0x41F00000 0x42200000), (f32x4 0x42480000 0x42700000 0x428C0000 0x42A00000), junk, junk⟩ untouched))
      = some (⟨(f32x4 0xBF800000 0xBF800000 0xC1200000 0xC1200000), (f32x4 0xBF800000 0xBF800000 0xC1200000 0xC1200000), 0, 0⟩, 0x1F80, []) := by
  decide +kernel

/-- R183, the example of 45_round_horizontal.md. -/
theorem test_vhsubpd :
    after 3 (sent 0x000000004118058A
      (start 0x1F80 ⟨(f64x2 0x3FF0000000000000 0x4000000000000000), (f64x2 0x4008000000000000 0x4010000000000000), junk, junk⟩ ⟨(f64x2 0x4024000000000000 0x4034000000000000), (f64x2 0x403E000000000000 0x4044000000000000), junk, junk⟩ untouched))
      = some (⟨(f64x2 0xBFF0000000000000 0xC024000000000000), (f64x2 0xBFF0000000000000 0xC024000000000000), 0, 0⟩, 0x1F80, []) := by
  decide +kernel

/-- R184, the example of 45_round_horizontal.md. -/
theorem test_addsubps :
    after 1 (sent 0x000000004108000B
      (start 0x1F80 ⟨(f32x4 0x3F800000 0x40000000 0x40400000 0x40800000), junk, junk, junk⟩ ⟨(f32x4 0x41200000 0x41200000 0x41200000 0x41200000), junk, junk, junk⟩ untouched))
      = some (⟨(f32x4 0xC1100000 0x41400000 0xC0E00000 0x41600000), junk, junk, junk⟩, 0x1F80, []) := by
  decide +kernel

/-- R185, the example of 45_round_horizontal.md. -/
theorem test_addsubpd :
    after 1 (sent 0x000000004108008B
      (start 0x1F80 ⟨(f64x2 0x3FF0000000000000 0x3FF0000000000000), junk, junk, junk⟩ ⟨(f64x2 0x3FF0000000000000 0x3FF0000000000000), junk, junk, junk⟩ untouched))
      = some (⟨(f64x2 0x0000000000000000 0x4000000000000000), junk, junk, junk⟩, 0x1F80, []) := by
  decide +kernel

/-- R186, the example of 45_round_horizontal.md. -/
theorem test_vaddsubps :
    after 3 (sent 0x000000004118050B
      (start 0x1F80 ⟨(f32x4 0x3F800000 0x40000000 0x40400000 0x40800000), (f32x4 0x40A00000 0x40C00000 0x40E00000 0x41000000), junk, junk⟩ ⟨(f32x4 0x3F800000 0x3F800000 0x3F800000 0x3F800000), (f32x4 0x3F800000 0x3F800000 0x3F800000 0x3F800000), junk, junk⟩ untouched))
      = some (⟨(f32x4 0x00000000 0x40400000 0x40000000 0x40A00000), (f32x4 0x40800000 0x40E00000 0x40C00000 0x41100000), 0, 0⟩, 0x1F80, []) := by
  decide +kernel

/-- R187, the example of 45_round_horizontal.md. -/
theorem test_vaddsubpd :
    after 3 (sent 0x000000004118058B
      (start 0x1F80 ⟨(f64x2 0x3FF0000000000000 0x4000000000000000), (f64x2 0x4008000000000000 0x4010000000000000), junk, junk⟩ ⟨(f64x2 0x3FE0000000000000 0x3FE0000000000000), (f64x2 0x3FE0000000000000 0x3FE0000000000000), junk, junk⟩ untouched))
      = some (⟨(f64x2 0x3FE0000000000000 0x4004000000000000), (f64x2 0x4004000000000000 0x4012000000000000), 0, 0⟩, 0x1F80, []) := by
  decide +kernel

/-- R191, the example of 46_dot_product.md. -/
theorem test_dpps :
    after 1 (sent 0x0000FF004108000D
      (start 0x1F80 ⟨(f32x4 0x3F800000 0x40000000 0x40400000 0x40800000), junk, junk, junk⟩ ⟨(f32x4 0x40A00000 0x40C00000 0x40E00000 0x41000000), junk, junk, junk⟩ untouched))
      = some (⟨(f32x4 0x428C0000 0x428C0000 0x428C0000 0x428C0000), junk, junk, junk⟩, 0x1F80, []) := by
  decide +kernel

/-- R191, the example of 46_dot_product.md. -/
theorem test_dpps_2 :
    after 1 (sent 0x000031004108000D
      (start 0x1F80 ⟨(f32x4 0x3F800000 0x40000000 0x40400000 0x40800000), junk, junk, junk⟩ ⟨(f32x4 0x40A00000 0x40C00000 0x40E00000 0x41000000), junk, junk, junk⟩ untouched))
      = some (⟨(f32x4 0x41880000 0x00000000 0x00000000 0x00000000), junk, junk, junk⟩, 0x1F80, []) := by
  decide +kernel

/-- R192, the example of 46_dot_product.md. -/
theorem test_vdpps :
    after 3 (sent 0x0000F1004118050D
      (start 0x1F80 ⟨(f32x4 0x3F800000 0x40000000 0x40400000 0x40800000), (f32x4 0x3F800000 0x3F800000 0x3F800000 0x3F800000), junk, junk⟩ ⟨(f32x4 0x40A00000 0x40C00000 0x40E00000 0x41000000), (f32x4 0x40000000 0x40000000 0x40000000 0x40000000), junk, junk⟩ untouched))
      = some (⟨(f32x4 0x428C0000 0x00000000 0x00000000 0x00000000), (f32x4 0x41000000 0x00000000 0x00000000 0x00000000), 0, 0⟩, 0x1F80, []) := by
  decide +kernel

/-- R192, the example of 46_dot_product.md. -/
theorem test_vdpps_2 :
    after 3 (sent 0x0000F0004118040D
      (start 0x1F80 ⟨(f32x4 0x7F61B1E6 0x7F61B1E6 0x00000000 0x00000000), junk, junk, junk⟩ ⟨(f32x4 0x40000000 0x40000000 0x00000000 0x00000000), junk, junk, junk⟩ untouched))
      = some (⟨(f32x4 0x00000000 0x00000000 0x00000000 0x00000000), 0, 0, 0⟩, 0x1FA8, []) := by
  decide +kernel

/-- R196, the example of 47_approx.md. -/
theorem test_rcpps :
    after 1 (sent 0x000000004108000E
      (start 0x1F80 untouched ⟨(f32x4 0x00000000 0x80000000 0x7F800000 0x7F800001), junk, junk, junk⟩ untouched))
      = some (⟨(f32x4 0x7F800000 0xFF800000 0x00000000 0x7FC00001), junk, junk, junk⟩, 0x1F80, []) := by
  decide +kernel

/-- R197, the example of 47_approx.md. -/
theorem test_rcpss :
    after 1 (sent 0x000000004108004E
      (start 0x1F80 ⟨(f32x4 0x00000000 0x3F800000 0x40000000 0x40400000), junk, junk, junk⟩ ⟨(f32x4 0x00000001 0x55555555 0x55555555 0x55555555), junk, junk, junk⟩ untouched))
      = some (⟨(f32x4 0x7F800000 0x3F800000 0x40000000 0x40400000), junk, junk, junk⟩, 0x1F80, []) := by
  decide +kernel

/-- R198, the example of 47_approx.md (the lanes with a normal operand replaced by vectors Y3 and Y2). -/
theorem test_vrcpps :
    after 3 (sent 0x000000004018040E
      (start 0x1F80 untouched ⟨(f32x4 0xFF800000 0x7FC00000 0x7F800000 0x80000000), junk, junk, junk⟩ untouched))
      = some (⟨(f32x4 0x80000000 0x7FC00000 0x00000000 0xFF800000), 0, 0, 0⟩, 0x1F80, []) := by
  decide +kernel

/-- R199, the example of 47_approx.md. -/
theorem test_vrcpss :
    after 3 (sent 0x000000004118044E
      (start 0x1F80 ⟨(f32x4 0x00000000 0x3F800000 0x40000000 0x40400000), junk, junk, junk⟩ ⟨(f32x4 0x80000000 0x55555555 0x55555555 0x55555555), junk, junk, junk⟩ untouched))
      = some (⟨(f32x4 0xFF800000 0x3F800000 0x40000000 0x40400000), 0, 0, 0⟩, 0x1F80, []) := by
  decide +kernel

/-- R200, the example of 47_approx.md. -/
theorem test_rsqrtps :
    after 1 (sent 0x000000004108000F
      (start 0x1F80 untouched ⟨(f32x4 0x00000000 0x80000000 0x7F800000 0xFF800000), junk, junk, junk⟩ untouched))
      = some (⟨(f32x4 0x7F800000 0xFF800000 0x00000000 0xFFC00000), junk, junk, junk⟩, 0x1F80, []) := by
  decide +kernel

/-- R201, the example of 47_approx.md. -/
theorem test_rsqrtss :
    after 1 (sent 0x000000004108004F
      (start 0x1F80 ⟨(f32x4 0x00000000 0x3F800000 0x40000000 0x40400000), junk, junk, junk⟩ ⟨(f32x4 0xBF800000 0x55555555 0x55555555 0x55555555), junk, junk, junk⟩ untouched))
      = some (⟨(f32x4 0xFFC00000 0x3F800000 0x40000000 0x40400000), junk, junk, junk⟩, 0x1F80, []) := by
  decide +kernel

/-- R202, the example of 47_approx.md (the lane with an OPEN result replaced by vector Y3). -/
theorem test_vrsqrtps :
    after 3 (sent 0x000000004018040F
      (start 0x1F80 untouched ⟨(f32x4 0x7F800000 0x00000001 0xC0000000 0x7FC00001), junk, junk, junk⟩ untouched))
      = some (⟨(f32x4 0x00000000 0x7F800000 0xFFC00000 0x7FC00001), 0, 0, 0⟩, 0x1F80, []) := by
  decide +kernel

/-- R203, the example of 47_approx.md. -/
theorem test_vrsqrtss :
    after 3 (sent 0x000000004118044F
      (start 0x1F80 ⟨(f32x4 0x00000000 0x3F800000 0x40000000 0x40400000), junk, junk, junk⟩ ⟨(f32x4 0xFF800001 0x55555555 0x55555555 0x55555555), junk, junk, junk⟩ untouched))
      = some (⟨(f32x4 0xFFC00001 0x3F800000 0x40000000 0x40400000), 0, 0, 0⟩, 0x1F80, []) := by
  decide +kernel

/-- R206, the example of 48_test.md. -/
theorem test_vtestps :
    condAfter (sent 0x0000000041080410
      (start 0x1F80 ⟨(f32x4 0xBF800000 0x3F800000 0xBF800000 0x3F800000), junk, junk, junk⟩ ⟨(f32x4 0x3F800000 0xBF800000 0x3F800000 0x3F800000), junk, junk, junk⟩ untouched))
      = some (⟨true, false, false, false, false, false⟩, 0x1F80) := by
  decide +kernel

/-- R207, the example of 48_test.md. -/
theorem test_vtestpd :
    condAfter (sent 0x0000000041080590
      (start 0x1F80 ⟨(f64x2 0x8000000000000000 0x3FF0000000000000), (f64x2 0x3FF0000000000000 0x3FF0000000000000), junk, junk⟩ ⟨(f64x2 0xFFF8000000000000 0x3FF0000000000000), (f64x2 0x3FF0000000000000 0x3FF0000000000000), junk, junk⟩ untouched))
      = some (⟨false, true, false, false, false, false⟩, 0x1F80) := by
  decide +kernel

/-- Program 5, step 1 (95_test_vectors.md): an unmasked ZE is `#XM`, nothing but MXCSR's ZE written. -/
theorem test_divps_2 :
    after 1 (sent 0x0000000041080003
      { start 0x1D80 ⟨(f32x4 0x3F800000 0x3F800000 0x3F800000 0x3F800000), 0, 0, 0⟩
          ⟨(f32x4 0x00000000 0x40400000 0x3F800000 0x40000000), 0, 0, 0⟩ untouched with osxmmexcpt := true })
      = some (⟨(f32x4 0x3F800000 0x3F800000 0x3F800000 0x3F800000), 0, 0, 0⟩, 0x1D84, [.xm]) := by
  decide +kernel

/-- Program 7, step 1: a memory operand. -/
theorem test_mulps_2 :
    after 1 (sent 0x0000000401080002
      (start 0x1F80 ⟨(f32x4 0x40000000 0x40000000 0x40000000 0x40000000), junk, 0, 0⟩ untouched untouched)
      ⟨0x410000003E800000C00000003FC00000, 0, 0, 0⟩)
      = some (⟨(f32x4 0x40400000 0xC0800000 0x3F000000 0x41800000), junk, 0, 0⟩, 0x1F80, []) := by
  decide +kernel

/-- Program 7, step 2: a scalar memory operand, any value above its lane 0. -/
theorem test_vaddss_2 :
    after 3 (sent 0x0000000401180440
      (start 0x1F80 ⟨(f32x4 0x40400000 0xC0800000 0x3F000000 0x41800000), junk, 0, 0⟩ untouched untouched)
      ⟨0xDEADBEEF3F000000, 0, 0, 0⟩)
      = some (⟨(f32x4 0x40600000 0xC0800000 0x3F000000 0x41800000), 0, 0, 0⟩, 0x1F80, []) := by
  decide +kernel

/-- S1 (95_test_vectors.md): the sum of zeros of both signs. -/
theorem test_addss_2 :
    after 1 (sent 0x0000000041080040
      (start 0x1F80 ⟨(f32x4 0x00000000 0x40A00000 0x40C00000 0x40E00000), junk, 0, 0⟩
        ⟨(f32x4 0x80000000 0 0 0), 0, 0, 0⟩ untouched))
      = some (⟨(f32x4 0x00000000 0x40A00000 0x40C00000 0x40E00000), junk, 0, 0⟩, 0x1F80, []) := by
  decide +kernel

/-- S9: an approximation with every mask clear. -/
theorem test_rcpps_2 :
    after 1 (sent 0x000000004108000E
      (start 0 untouched ⟨(f32x4 0x00000000 0xFF800000 0x7F800001 0x00000001), 0, 0, 0⟩ untouched))
      = some (⟨(f32x4 0x7F800000 0x80000000 0x7FC00001 0x7F800000), junk, junk, junk⟩, 0, []) := by
  decide +kernel

/-- S10 with the suppress bit. -/
theorem test_roundps_2 :
    after 1 (sent 0x0000080041080008
      (start 0x1F80 untouched ⟨(f32x4 0x40200000 0xBF000000 0x40400000 0x3FA00000), 0, 0, 0⟩ untouched))
      = some (⟨(f32x4 0x40000000 0x80000000 0x40400000 0x3F800000), junk, junk, junk⟩, 0x1F80, []) := by
  decide +kernel

/-- Vector H5: an infinity and its negation, a NaN and two zeros meet in pairs. -/
theorem test_haddps_2 :
    after 1 (sent 0x0000000041080009
      (start 0x1F80 ⟨(f32x4 0x7F800000 0xFF800000 0x3F800000 0x33800000), 0, 0, 0⟩
        ⟨(f32x4 0x7FC00001 0x3F800000 0x00000000 0x80000000), 0, 0, 0⟩ untouched))
      = some (⟨(f32x4 0xFFC00000 0x3F800000 0x7FC00001 0x00000000), 0, 0, 0⟩, 0x1FA1, []) := by
  decide +kernel

/-- Vector H8. -/
theorem test_addsubps_2 :
    after 1 (sent 0x000000004108000B
      (start 0x1F80 ⟨(f32x4 0x7F800000 0x7F800000 0x3F800000 0x3F800000), 0, 0, 0⟩
        ⟨(f32x4 0x7F800000 0x7F800000 0x3F800000 0xBF800000), 0, 0, 0⟩ untouched))
      = some (⟨(f32x4 0xFFC00000 0x7F800000 0x00000000 0x00000000), 0, 0, 0⟩, 0x1F81, []) := by
  decide +kernel

/-! ### The compare table (95_test_vectors.md 3.6): the lanes of `(1, 2)`, `(2, 2)`, `(3, 2)`, `(QNaN, 2)`, and IE on the last -/

/-- One row of the table: the four results and the flag. -/
def compareRow (c : BitVec 5) : List Bool × Bool :=
  let st := (start 0x1F80 untouched untouched untouched).plainStatus
  let r (a : BitVec 32) := cmpW c Params.widest .f32 st a 0x40000000#32
  ([r 0x3F800000#32, r 0x40000000#32, r 0x40400000#32, r 0x7FC00000#32].map (fun x => x.val == 0xFFFFFFFF#32),
    (r 0x7FC00000#32).flags == flagIE)

theorem test_compare_table : ∀ e ∈ ([
    (0, [false, true, false, false], false),
    (1, [true, false, false, false], true),
    (2, [true, true, false, false], true),
    (3, [false, false, false, true], false),
    (4, [true, false, true, true], false),
    (5, [false, true, true, true], true),
    (6, [false, false, true, true], true),
    (7, [true, true, true, false], false),
    (8, [false, true, false, true], false),
    (9, [true, false, false, true], true),
    (10, [true, true, false, true], true),
    (11, [false, false, false, false], false),
    (12, [true, false, true, false], false),
    (13, [false, true, true, false], true),
    (14, [false, false, true, false], true),
    (15, [true, true, true, true], false),
    (16, [false, true, false, false], true),
    (17, [true, false, false, false], false),
    (18, [true, true, false, false], false),
    (19, [false, false, false, true], true),
    (20, [true, false, true, true], true),
    (21, [false, true, true, true], false),
    (22, [false, false, true, true], false),
    (23, [true, true, true, false], true),
    (24, [false, true, false, true], true),
    (25, [true, false, false, true], false),
    (26, [true, true, false, true], false),
    (27, [false, false, false, false], true),
    (28, [true, false, true, false], true),
    (29, [false, true, true, false], false),
    (30, [false, false, true, false], false),
    (31, [true, true, true, true], true)] : List (BitVec 5 × List Bool × Bool)),
    compareRow e.1 = e.2 := by
  decide +kernel

/-! ### The core's commit (95_test_vectors.md 3.11), on a call that writes the zero vector to x1 -/

/-- The commit of a call with the flags given: MXCSR after it, the exception taken, and whether x1 was written. -/
def committed (mx : BitVec 32) (fl : FlagSet) (osx filter : Bool) : BitVec 32 × List Nat × Bool :=
  let s0 := start mx untouched untouched untouched
  let s := { s0 with osxmmexcpt := osx, cfg := { s0.cfg with coreFilter := filter } }
  let t := commit (.legacy .add false false 1 (.reg 2) 0)
    { r := VecWord.zero, we := true, flags := fl, ccv := false, zf := false, cf := false } s
  (t.mxcsr, t.traps.map (fun f => f.vector.number), t.readX 1 == VecWord.zero)

theorem test_commit_e1 : committed 0x1F80 0x24 true true = (0x1FA4, [], true) := by decide +kernel

theorem test_commit_e2 : committed 0x1D80 0x24 true true = (0x1D84, [19], false) := by decide +kernel

theorem test_commit_e3 : committed 0x1D80 0x24 true false = (0x1DA4, [19], false) := by decide +kernel

theorem test_commit_e4 : committed 0x1D80 0x24 false true = (0x1D84, [6], false) := by decide +kernel

theorem test_commit_e5 : committed 0x0F80 0x20 true true = (0x0FA0, [19], false) := by decide +kernel

theorem test_commit_e6 : committed 0x0F80 0x21 true true = (0x0FA1, [19], false) := by decide +kernel

theorem test_commit_e7 : committed 0x1F00 0x21 true true = (0x1F01, [19], false) := by decide +kernel

theorem test_commit_e8 : committed 0x0000 0x00 true true = (0x0000, [], true) := by decide +kernel

theorem test_commit_e9 : committed 0x1FBF 0x28 true true = (0x1FBF, [], true) := by decide +kernel

/-! ### The core's actions -/

theorem test_powerOn : (nextOr (start 0 untouched untouched untouched) (step
    { start 0 untouched untouched untouched 5 with inputs := [.powerOn], osxmmexcpt := true })) = State.resetWith Params.widest := by
  decide +kernel

theorem test_init : (nextOr (State.resetWith narrow) (step
    { start 0x1D80 untouched untouched untouched 5 with inputs := [.init], osxmmexcpt := true }))
      = start 0x1D80 untouched untouched untouched 5 := by
  decide +kernel

theorem test_writeMxcsr : isNext (step { State.resetWith narrow with inputs := [.writeMxcsr 0xFFFF] }) = true ∧
    isNext (step { State.resetWith narrow with inputs := [.writeMxcsr 0x10000] }) = false := by
  decide +kernel

theorem test_writeX : isNext (step { State.resetWith narrow with inputs := [.writeX 15 untouched] }) = true ∧
    isNext (step { State.resetWith narrow with inputs := [.writeX 16 untouched] }) = false := by
  decide +kernel

theorem test_handlerReturn_alone : isNext (step { State.resetWith narrow with inputs := [.handlerReturn untouched] }) = false := by
  decide +kernel

/-- The handler's return sends the call that faulted again, with the memory operand it brings (R14, R216). -/
theorem test_handlerReturn_bmem :
    (nextOr (State.resetWith narrow) (step { State.resetWith narrow with
      inputs := [.handlerReturn VecWord.zero, .init]
      traps := [{ vector := .xm, faulting := some (.call 0x41080003 untouched) }] })).inputs
      = [.call 0x41080003 VecWord.zero, .init] := by
  decide +kernel

/-- A descriptor placed at reset is run by the next step, whatever the parameters (the OPEN ones of `State.reset`). -/
theorem test_first_step : isNext (step (State.reset.withFetchWord 48 0x41000500)) = true := by
  decide +kernel

/-! ### What stands in front of the block (30_encoding.md R47, R50, R51; 20_memory.md R30) -/

theorem test_x86Encodings :
    x86Encodings (unpack 0x000001008318000C) = [.sse] ∧ x86Encodings (unpack 0x0000000041000500) = [.vex, .evex] ∧
      x86Encodings (unpack 0x0000000041000600) = [.evex] ∧ x86Encodings (unpack 0x0000000041000507) = [.evex] := by
  decide

theorem test_aliases : aliasImmediate "cmplt" = some 1 ∧ aliasImmediate "vcmplt_oq" = some 17 ∧ aliasImmediate "vcmptrue_us" = some 31 ∧
    aliasImmediate "vcmp" = none := by
  decide

theorem test_bmemOfBytes :
    bmemOfBytes [0x00, 0x00, 0x80, 0x3F, 0x01] = ⟨f32x4 0x3F800000 1 0 0, 0, 0, 0⟩ := by
  decide +kernel

/-! ### Witnesses: for every statement with hypotheses, a state and operands that meet them all -/

/-- The machine with the widest registers and an MXCSR whose upper half is zero meets the invariant. -/
theorem start_wf (mx : BitVec 32) (a b d : VecWord) (k1 : BitVec 64) (h : mx.extractLsb' 16 16 = 0) :
    (start mx a b d k1).Wf :=
  ⟨fun _ => ⟨rfl, .inl (Bool.or_true _)⟩, h, fun _ ht => nomatch ht⟩

/-- Every exception masked, nothing sent. -/
def quietStart : State := start 0x1F80 untouched untouched untouched 5

theorem quietStart_wf : quietStart.Wf := start_wf _ _ _ _ _ (by decide)

theorem quietStart_allMasked : quietStart.AllMasked := by unfold State.AllMasked; decide +kernel

/-- No exception masked; x1 holds ones, x2 zeros: a division by zero in every lane. -/
def trapStart : State := start 0 ⟨f32x4 0x3F800000 0x3F800000 0x3F800000 0x3F800000, 0, 0, 0⟩ VecWord.zero untouched

theorem trapStart_wf : trapStart.Wf := start_wf _ _ _ _ _ (by decide)

/-- The operands at the ends of their ranges. -/
def widestMask : Evex := { rc := some .rz, sae := true, kz := true, ksel := 7 }

theorem witness_DecodeOfEncode :
    ((Instr.vaddpd .v512 widestMask 31 31 (.reg 31)).wellFormed = true ∧
        (Instr.vaddpd .v512 widestMask 31 31 (.reg 31)).fits Params.widest = true) ∧
      ((Instr.cmpps 15 .mem 255).wellFormed = true ∧ (Instr.cmpps 15 .mem 255).fits narrow = true) ∧
      (Instr.vtestpd .v256 15 (.reg 0)).wellFormed = true ∧ (Instr.vtestpd .v256 15 (.reg 0)).fits narrow = true := by
  decide +kernel

theorem witness_EncodeOfDecode : decode narrow 0x0000000041000500 = .ok (.vaddps .v256 .plain 0 1 (.reg 2)) := by rfl

theorem witness_StepRunsTheInstruction :
    ({ quietStart with inputs := [.call 0x0000000041000500 untouched, .init] } : State).inputs
        = .call 0x0000000041000500 untouched :: [.init] ∧
      decode quietStart.cfg 0x0000000041000500 = .ok (.vaddps .v256 .plain 0 1 (.reg 2)) :=
  ⟨rfl, rfl⟩

theorem witness_StepRefusesIllegalDescriptors :
    ({ quietStart with inputs := [.call 0x11 untouched, .init] } : State).inputs = .call 0x11 untouched :: [.init] ∧
      decode quietStart.cfg 0x11 = .error .reservedOp :=
  ⟨rfl, rfl⟩

/-- A step that completes and a step that takes the exception, from states that meet the invariant. -/
theorem witness_StepKeepsInvariant :
    (quietStart.Wf ∧ step quietStart = .next quietStart) ∧
      ({ trapStart with inputs := [.call 0x0000000041000503 untouched] } : State).Wf ∧
      isNext (step { trapStart with inputs := [.call 0x0000000041000503 untouched] }) = true :=
  ⟨⟨quietStart_wf, rfl⟩, trapStart_wf, by decide +kernel⟩

theorem witness_StepKeepsParameters : step quietStart = .next quietStart := rfl

/-- A call that writes a register, one that writes the condition flags, and the clauses' premises. -/
theorem witness_ExecFrame :
    exec (.addps 3 (.reg 1)) quietStart = .next (nextOr quietStart (exec (.addps 3 (.reg 1)) quietStart)) ∧
      writtenRegister (.addps 3 (.reg 1)) ≠ some 4 ∧ (Instr.addps 3 (.reg 1)).desc.op ≠ 16 ∧
      (Instr.addps 3 (.reg 1)).desc.op ≠ 7 ∧ quietStart.mxcsr.getLsbD 12 = true ∧
      exec (.vtestps .v256 1 (.reg 2)) quietStart
        = .next (nextOr quietStart (exec (.vtestps .v256 1 (.reg 2)) quietStart)) ∧
      writtenRegister (.vtestps .v256 1 (.reg 2)) ≠ some 1 :=
  ⟨eq_next_of_isNext _ (by decide +kernel), by decide, by decide, by decide, by decide,
    eq_next_of_isNext _ (by decide +kernel), by decide⟩

/-- Both outcomes: a call that completes, and one that takes the exception. -/
theorem witness_CompletesOrTakesException :
    exec (.divps 1 (.reg 2)) quietStart = .next (nextOr quietStart (exec (.divps 1 (.reg 2)) quietStart)) ∧
      exec (.divps 1 (.reg 2)) trapStart = .next (nextOr trapStart (exec (.divps 1 (.reg 2)) trapStart)) ∧
      (nextOr quietStart (exec (.divps 1 (.reg 2)) quietStart)).traps = [] ∧
      (nextOr trapStart (exec (.divps 1 (.reg 2)) trapStart)).traps.length = 1 :=
  ⟨eq_next_of_isNext _ (by decide +kernel), eq_next_of_isNext _ (by decide +kernel), by decide +kernel, by decide +kernel⟩

theorem witness_MaskedCallsComplete :
    (Instr.vdivpd .v512 widestMask 31 31 .mem).wellFormed = true ∧
      (Instr.vdivpd .v512 widestMask 31 31 .mem).fits quietStart.cfg = true ∧ quietStart.AllMasked :=
  ⟨by decide, by decide, quietStart_allMasked⟩

/-- An operand that no machine has, and one that this machine does not. -/
theorem witness_IllFormedIsRefused :
    ¬((Instr.addps 16 (.reg 0)).wellFormed = true ∧ (Instr.addps 16 (.reg 0)).fits quietStart.cfg = true) ∧
      ¬((Instr.vaddps .v512 .plain 0 0 (.reg 0)).wellFormed = true ∧
        (Instr.vaddps .v512 .plain 0 0 (.reg 0)).fits (State.resetWith narrow).cfg = true) := by
  decide

/-- The premises of a legacy result, at the ends of the register range. -/
theorem legacy_premises : quietStart.Wf ∧ quietStart.AllMasked ∧ VReg.low 15 = true ∧ (Src.reg 15).low = true ∧ Src.mem.low = true :=
  ⟨quietStart_wf, quietStart_allMasked, by decide, by decide, by decide⟩

/-- The premises of a VEX result, at the ends of the register range, on a state with every exception masked and one with none. -/
theorem vex_premises : quietStart.Wf ∧ quietStart.AllMasked ∧ trapStart.Wf ∧ VLen.v256 ≠ .v512 ∧ VReg.low 15 = true ∧
    VReg.low 0 = true ∧ (Src.reg 15).low = true ∧ Src.mem.low = true :=
  ⟨quietStart_wf, quietStart_allMasked, trapStart_wf, by decide, by decide, by decide, by decide, by decide⟩

/-- x1 and x2 hold a signalling NaN in every lane of either width, and no exception is masked. -/
def nanStart : State :=
  start 0 ⟨f32x4 0x7F800001 0x7FF00001 0x7F800001 0x7FF00001, 0, 0, 0⟩
    ⟨f32x4 0x7F800001 0x7FF00001 0x7F800001 0x7FF00001, 0, 0, 0⟩ untouched

/-- Both outcomes of the forms stated by `State.committed` occur: each takes the exception on `nanStart`, and completes on `quietStart`. -/
theorem committed_both : ∀ i ∈ ([.vscalefps .v128 .plain 3 1 (.reg 2), .vscalefsd .plain 3 1 (.reg 2), .vcmpps .v128 3 1 (.reg 2) 1,
      .vcmpsd 3 1 (.reg 2) 1, .roundps 1 (.reg 2) 0, .roundsd 1 (.reg 2) 0, .vroundpd .v128 3 (.reg 2) 0, .vroundss 3 1 (.reg 2) 0,
      .haddps 1 (.reg 2), .vhsubpd .v128 3 1 (.reg 2), .addsubps 1 (.reg 2), .vaddsubpd .v128 3 1 (.reg 2), .dpps 1 (.reg 2) 255,
      .vdpps .v128 3 1 (.reg 2) 255] : List Instr),
    (nextOr nanStart (exec i nanStart)).traps.length = 1 ∧ isNext (exec i quietStart) = true ∧
      (nextOr quietStart (exec i quietStart)).traps.length = 0 := by
  decide +kernel

theorem witness_LegacyPackedResult :
    ∃ e ∈ legacyPackedForms 255, ∃ (s : State) (dst : VReg) (src : Src),
      e.2.1 = .f32 ∧ s.Wf ∧ s.AllMasked ∧ VReg.low dst = true ∧ src.low = true :=
  ⟨_, List.mem_cons_self .., quietStart, 15, .reg 15, rfl, quietStart_wf, quietStart_allMasked, by decide, by decide⟩

theorem witness_LegacyScalarResult :
    ∃ e ∈ legacyScalarForms 255, ∃ (s : State) (dst : VReg) (src : Src),
      e.2.1 = .f32 ∧ s.Wf ∧ s.AllMasked ∧ VReg.low dst = true ∧ src.low = true :=
  ⟨_, List.mem_cons_self .., quietStart, 15, .mem, rfl, quietStart_wf, quietStart_allMasked, by decide, by decide⟩

theorem witness_EvexPackedResult :
    ∃ e ∈ evexPackedForms, ∃ (s : State) (vl : VLen) (ev : Evex) (dst src1 : VReg) (src2 : Src),
      s.Wf ∧ s.AllMasked ∧ (e.1 vl ev dst src1 src2).wellFormed = true ∧ (e.1 vl ev dst src1 src2).fits s.cfg = true :=
  ⟨_, List.mem_cons_self .., quietStart, .v512, widestMask, 31, 31, .reg 31, quietStart_wf, quietStart_allMasked, by decide,
    by decide⟩

theorem witness_EvexScalarResult :
    ∃ e ∈ evexScalarForms, ∃ (s : State) (ev : Evex) (dst src1 : VReg) (src2 : Src),
      s.Wf ∧ s.AllMasked ∧ (e.1 ev dst src1 src2).wellFormed = true ∧ (e.1 ev dst src1 src2).fits s.cfg = true :=
  ⟨_, List.mem_cons_self .., quietStart, widestMask, 31, 31, .mem, quietStart_wf, quietStart_allMasked, by decide, by decide⟩

/-- The operands of SCALEF, packed and scalar, at the ends of their ranges, on a state with every exception masked and one with none. -/
theorem witness_ScalefResult :
    quietStart.Wf ∧ quietStart.AllMasked ∧ trapStart.Wf ∧
      (∀ s ∈ [quietStart, trapStart],
        (Instr.vscalefpd .v512 widestMask 31 31 (.reg 31)).wellFormed = true ∧
        (Instr.vscalefpd .v512 widestMask 31 31 (.reg 31)).fits s.cfg = true ∧
        (Instr.vscalefss widestMask 31 31 .mem).wellFormed = true ∧ (Instr.vscalefss widestMask 31 31 .mem).fits s.cfg = true) :=
  ⟨quietStart_wf, quietStart_allMasked, trapStart_wf, by decide⟩

theorem witness_VexCompareResult : quietStart.Wf ∧ quietStart.AllMasked ∧ trapStart.Wf ∧ VLen.v256 ≠ .v512 ∧
    VReg.low 15 = true ∧ VReg.low 0 = true ∧ (Src.reg 15).low = true ∧ Src.mem.low = true := vex_premises

theorem witness_RoundResult : quietStart.Wf ∧ quietStart.AllMasked ∧ trapStart.Wf ∧ VLen.v256 ≠ .v512 ∧
    VReg.low 15 = true ∧ VReg.low 0 = true ∧ (Src.reg 15).low = true ∧ Src.mem.low = true := vex_premises

theorem witness_HorizontalResult : quietStart.Wf ∧ quietStart.AllMasked ∧ trapStart.Wf ∧ VLen.v256 ≠ .v512 ∧
    VReg.low 15 = true ∧ VReg.low 0 = true ∧ (Src.reg 15).low = true ∧ Src.mem.low = true := vex_premises

theorem witness_AddSubResult : quietStart.Wf ∧ quietStart.AllMasked ∧ trapStart.Wf ∧ VLen.v256 ≠ .v512 ∧
    VReg.low 15 = true ∧ VReg.low 0 = true ∧ (Src.reg 15).low = true ∧ Src.mem.low = true := vex_premises

theorem witness_DotProductResult : quietStart.Wf ∧ quietStart.AllMasked ∧ trapStart.Wf ∧ VLen.v256 ≠ .v512 ∧
    VReg.low 15 = true ∧ VReg.low 0 = true ∧ (Src.reg 15).low = true ∧ Src.mem.low = true := vex_premises

/-- With every exception unmasked. -/
theorem witness_ApproximationResult : trapStart.Wf ∧ VLen.v256 ≠ .v512 ∧ VReg.low 15 = true ∧ VReg.low 0 = true ∧
    (Src.reg 15).low = true ∧ Src.mem.low = true :=
  ⟨trapStart_wf, by decide, by decide, by decide, by decide, by decide⟩

theorem witness_SignTestResult : VLen.v256 ≠ .v512 ∧ VReg.low 15 = true ∧ (Src.reg 15).low = true ∧ Src.mem.low = true := by
  decide

/-- A state on which the call completes and one on which it takes the exception (`witness_CompletesOrTakesException`). -/
theorem witness_LegacyUnmaskedFlagFaults :
    quietStart.Wf ∧ trapStart.Wf ∧ VReg.low 1 = true ∧ (Src.reg 2).low = true :=
  ⟨quietStart_wf, trapStart_wf, by decide, by decide⟩

theorem witness_EvexUnmaskedFlagFaults :
    trapStart.Wf ∧ (Instr.vdivps .v128 .plain 3 1 (.reg 2)).wellFormed = true ∧
      (Instr.vdivps .v128 .plain 3 1 (.reg 2)).fits trapStart.cfg = true ∧
      (Instr.vdivss .plain 3 1 (.reg 2)).wellFormed = true ∧ (Instr.vdivss .plain 3 1 (.reg 2)).fits trapStart.cfg = true ∧
      (nextOr trapStart (exec (.vdivps .v128 .plain 3 1 (.reg 2)) trapStart)).traps.length = 1 :=
  ⟨trapStart_wf, by decide, by decide, by decide, by decide, by decide +kernel⟩

/-- SAE alone, and an override alone, on a division by zero with no exception masked. -/
theorem witness_SuppressedCallNeverFaults :
    exec (.vdivps .v128 { Evex.plain with sae := true } 3 1 (.reg 2)) trapStart
        = .next (nextOr trapStart (exec (.vdivps .v128 { Evex.plain with sae := true } 3 1 (.reg 2)) trapStart)) ∧
      exec (.vdivss { Evex.plain with rc := some .ru } 3 1 (.reg 2)) trapStart
        = .next (nextOr trapStart (exec (.vdivss { Evex.plain with rc := some .ru } 3 1 (.reg 2)) trapStart)) ∧
      exec (.vscalefps .v128 { Evex.plain with sae := true } 3 1 (.reg 2)) nanStart
        = .next (nextOr nanStart (exec (.vscalefps .v128 { Evex.plain with sae := true } 3 1 (.reg 2)) nanStart)) ∧
      exec (.vscalefsd { Evex.plain with rc := some .ru } 3 1 (.reg 2)) nanStart
        = .next (nextOr nanStart (exec (.vscalefsd { Evex.plain with rc := some .ru } 3 1 (.reg 2)) nanStart)) :=
  ⟨eq_next_of_isNext _ (by decide +kernel), eq_next_of_isNext _ (by decide +kernel), eq_next_of_isNext _ (by decide +kernel),
    eq_next_of_isNext _ (by decide +kernel)⟩

/-- The division by zero, sent with ZE unmasked: `VDIVPS x0, x1, x2`, 256 bits. -/
def faultingCall : State := { trapStart with inputs := [.call 0x0000000041000503 untouched, .init] }

/-- What the handler leaves: every exception masked, and its return next. -/
def handled : State :=
  { nextOr trapStart (step faultingCall) with mxcsr := 0x1F80, inputs := [.handlerReturn VecWord.zero, .init] }

theorem witness_HandlerReturnSendsCallAgain :
    faultingCall.inputs = .call 0x0000000041000503 untouched :: [.init] ∧
      decode faultingCall.cfg 0x0000000041000503 = .ok (.vdivps .v256 .plain 0 1 (.reg 2)) ∧
      step faultingCall = .next (nextOr trapStart (step faultingCall)) ∧
      (nextOr trapStart (step faultingCall)).traps ≠ faultingCall.traps ∧
      handled.traps = (nextOr trapStart (step faultingCall)).traps ∧ handled.cfg = faultingCall.cfg ∧
      handled.inputs = .handlerReturn VecWord.zero :: [.init] :=
  ⟨rfl, rfl, eq_next_of_isNext _ (by decide +kernel), by decide +kernel, rfl, by decide +kernel, rfl⟩

theorem witness_ResetAndInitValues :
    ({ trapStart with inputs := [.powerOn, .init] } : State).inputs = .powerOn :: [.init] ∧
      ({ trapStart with inputs := [.init] } : State).inputs = .init :: [] := ⟨rfl, rfl⟩

/-- The core's writes: MXCSR at both sides of the boundary, the last register of the smallest file, the last mask register. -/
theorem witness_CoreWrites :
    ({ quietStart with inputs := [.writeMxcsr 0xFFFF] } : State).inputs = .writeMxcsr 0xFFFF :: [] ∧
      (0xFFFF : BitVec 32).toNat < 65536 ∧
      ({ quietStart with inputs := [.writeMxcsr 0x10000] } : State).inputs = .writeMxcsr 0x10000 :: [] ∧
      ¬(0x10000 : BitVec 32).toNat < 65536 ∧
      ({ State.resetWith narrow with inputs := [.writeX 15 ⟨junk, junk, 0, 0⟩] } : State).inputs
        = .writeX 15 ⟨junk, junk, 0, 0⟩ :: [] ∧
      (State.resetWith narrow).cfg.hasReg 15 = true ∧ fitsWidth (State.resetWith narrow).cfg ⟨junk, junk, 0, 0⟩ = true ∧
      ({ quietStart with inputs := [.writeK 7 5] } : State).inputs = .writeK 7 5 :: [] ∧
      ({ quietStart with inputs := [.writeOsxmmexcpt true] } : State).inputs = .writeOsxmmexcpt true :: [] ∧
      ({ quietStart with inputs := [.writeCond ⟨true, true, true, true, true, true⟩] } : State).inputs
        = .writeCond ⟨true, true, true, true, true, true⟩ :: [] :=
  ⟨rfl, by decide, rfl, by decide, rfl, by decide, by decide, rfl, rfl, rfl⟩

/-- k1 enables lane 0 alone; the two states differ in lane 1 of x1 and of x2. -/
def laneStart (a b : BitVec 32) : State :=
  start 0x1F80 ⟨f32x4 0x3F800000 a 0 0, 0, 0, 0⟩ ⟨f32x4 0x3F800000 b 0 0, 0, 0, 0⟩ untouched 1

/-- The mask k1, merging. -/
def underK1 : Evex := { Evex.plain with ksel := 1 }

theorem laneStart_agrees : ∀ i < VLen.lanes .f32 .v512, (laneStart 0 0).laneEnabled underK1 i = true →
    lane .f32 ((laneStart 7 8).readX 1) i = lane .f32 ((laneStart 0 0).readX 1) i ∧
      lane .f32 ((laneStart 7 8).readX 2) i = lane .f32 ((laneStart 0 0).readX 2) i := by
  decide +kernel

theorem witness_DisabledLanesDoNotMatter :
    (3 : VReg) ≠ 1 ∧ (3 : VReg) ≠ 2 ∧ (laneStart 7 8).cfg = (laneStart 0 0).cfg ∧
      (laneStart 7 8).mxcsr = (laneStart 0 0).mxcsr ∧ (laneStart 7 8).k = (laneStart 0 0).k ∧
      (laneStart 7 8).readX 3 = (laneStart 0 0).readX 3 ∧
      (∀ i < VLen.lanes .f32 .v512, (laneStart 0 0).laneEnabled underK1 i = true →
        lane .f32 ((laneStart 7 8).readX 1) i = lane .f32 ((laneStart 0 0).readX 1) i ∧
          lane .f32 ((laneStart 7 8).readX 2) i = lane .f32 ((laneStart 0 0).readX 2) i) ∧
      isNext (exec (.vaddps .v512 underK1 3 1 (.reg 2)) (laneStart 0 0)) = true ∧
      isNext (exec (.vaddps .v512 underK1 3 1 (.reg 2)) (laneStart 7 8)) = true :=
  ⟨by decide, by decide, rfl, rfl, rfl, rfl, laneStart_agrees, by decide +kernel, by decide +kernel⟩

theorem witness_ScalarReadsLaneZeroOfMemory :
    lane .f32 ⟨f32x4 1 2 3 4, junk, junk, junk⟩ 0 = lane .f32 ⟨f32x4 1 0 0 0, 0, 0, 0⟩ 0 ∧
      isNext (exec (.vaddss .plain 31 30 .mem)
        { quietStart with inputs := [.call 0 ⟨f32x4 1 2 3 4, junk, junk, junk⟩] }) = true ∧
      isNext (exec (.vaddss .plain 31 30 .mem) { quietStart with inputs := [.call 0 ⟨f32x4 1 0 0 0, 0, 0, 0⟩] }) = true := by
  decide +kernel

/-- x1 and x2 with the sub-blocks given. -/
def blockStart (b c : Block) : State := start 0x1F80 ⟨b, c, 0, 0⟩ ⟨b, c, 0, 0⟩ untouched

/-- States that agree on sub-block 0 and differ in sub-block 1, and the other way round. -/
theorem witness_SubBlocksAreIndependent :
    (blockStart junk 0).AllMasked ∧ (blockStart junk junk).cfg = (blockStart junk 0).cfg ∧
      (blockStart junk junk).mxcsr = (blockStart junk 0).mxcsr ∧
      ((blockStart junk junk).readX 1).block 0 = ((blockStart junk 0).readX 1).block 0 ∧
      ((blockStart junk junk).operandB (.reg 2)).block 0 = ((blockStart junk 0).operandB (.reg 2)).block 0 ∧
      ((blockStart 0 0).readX 1).block 1 = ((blockStart junk 0).readX 1).block 1 ∧
      ((blockStart 0 0).operandB (.reg 2)).block 1 = ((blockStart junk 0).operandB (.reg 2)).block 1 ∧
      (∀ e ∈ subBlockForms 255, ∀ s ∈ [blockStart junk junk, blockStart junk 0, blockStart 0 0],
        isNext (exec (e .v256 15 1 (.reg 2)) s) = true) ∧
      (∀ e ∈ legacySubBlockForms 255, ∀ s ∈ [blockStart junk junk, blockStart junk 0, blockStart 0 0],
        isNext (exec (e 1 (.reg 2)) s) = true) :=
  ⟨by unfold State.AllMasked; decide +kernel, rfl, rfl, rfl, rfl, rfl, rfl, by decide +kernel, by decide +kernel⟩

/-! Witnesses of the statements about lanes: the status context is MXCSR's after reset, with the fields named changed. -/

/-- The status context of 0x1F80. -/
def resetStatus : Status := (State.resetWith Params.widest).plainStatus

/-- Each NaN of each kind with the smallest fraction, and the largest. -/
theorem witness_DefaultAndQuietNaN :
    isNaN .f32 0x7F800001#32 = true ∧ isNaN .f64 0xFFFFFFFFFFFFFFFF#64 = true ∧ isQNaN .f32 0x7FC00000#32 = true := by
  decide

theorem witness_ArithmeticOfNaN :
    (isNaN .f32 0x7F800001#32 = true ∨ isNaN .f32 0#32 = true) ∧ (isNaN .f64 0#64 = true ∨ isNaN .f64 0xFFF8000000000000#64 = true) ∧
      (isQNaN .f32 0x7FC00000#32 = true ∧ isInf .f32 0xFF800000#32 = true ∧
        ({ Params.widest with scalefQnanInf := .draw } : Params).scalefQnanInf = .draw) := by
  decide

theorem witness_UnaryOfNaN : isNaN .f32 0xFF800001#32 = true ∧ isNaN .f64 0x7FF8000000000000#64 = true := by decide

theorem witness_InvalidOperations :
    (isInf .f32 0x7F800000#32 = true ∧ isInf .f32 0xFF800000#32 = true ∧ sign .f32 0x7F800000#32 ≠ sign .f32 0xFF800000#32) ∧
      isZero .f32 0x80000000#32 = true ∧ sign .f32 0x7F800000#32 = false ∧ sign .f32 0xFF800000#32 = true ∧
      (isNaN .f32 0x80000001#32 = false ∧ isZero .f32 0x80000001#32 = false ∧ sign .f32 0x80000001#32 = true ∧
        resetStatus.daz = false) ∧
      (isNaN .f32 0x80800000#32 = false ∧ isZero .f32 0x80800000#32 = false ∧ sign .f32 0x80800000#32 = true ∧
        isDenormal .f32 0x80800000#32 = false) := by
  decide

/-- An exact cancellation, two zeros of unequal sign, a zero times a number, a zero over a number. -/
theorem witness_SignOfExactZero :
    (isFinite .f32 0x3F800000#32 = true ∧ isFinite .f32 0xBF800000#32 = true ∧ resetStatus.daz = false) ∧
      realOf .f32 0x3F800000#32 + realOf .f32 0xBF800000#32 = 0 ∧ realOf .f32 0x3F800000#32 - realOf .f32 0x3F800000#32 = 0 ∧
      realOf .f32 0x80000000#32 + realOf .f32 0#32 = 0 ∧ realOf .f32 0x80000000#32 - realOf .f32 0#32 = 0 ∧
      realOf .f32 0x80000000#32 * realOf .f32 0x3F800000#32 = 0 ∧
      isFinite .f32 0x80000000#32 = true ∧ isZero .f32 0x80000000#32 = true ∧ isZero .f32 0x3F800000#32 = false := by
  decide +kernel

theorem witness_DenormalsAreZeros :
    ({ resetStatus with daz := true } : Status).daz = true ∧ isDenormal .f32 0x007FFFFF#32 = true ∧
      isDenormal .f32 0x00800000#32 = false := by
  decide

/-- Both sides of the equivalence occur. -/
theorem witness_DenormalFlag :
    resetStatus.daz = false ∧ isDenormal .f32 0x80000001#32 = true ∧ isNaN .f32 0x80000001#32 = false ∧
      isDenormal .f32 0x00800000#32 = false ∧ isNaN .f32 0x7F800001#32 = true ∧
      ({ Params.widest with scalefDeB := true } : Params).scalefDeB = true ∧ Params.widest.scalefDeB = false := by
  decide

theorem witness_SubtractIsAddOfNegated : isNaN .f32 0x7F800000#32 = false ∧ isNaN .f32 0xFF800000#32 = false := by decide

theorem witness_DivideByZero :
    (isZero .f32 0x80000000#32 = true ∧ resetStatus.daz = false) ∧
      (isFinite .f32 0x00000001#32 = true ∧ isZero .f32 0x00000001#32 = false) ∧
      (isFinite .f32 0xFF7FFFFF#32 = true ∧ isZero .f32 0xFF7FFFFF#32 = false) ∧ isInf .f32 0xFF800000#32 = true := by
  decide

/-- Operands of which the first, the second and neither is the lesser, infinities and the two zeros among them. -/
theorem lessThan_cases :
    LessThan .f32 0xFF800000#32 0xFF7FFFFF#32 ∧ LessThan .f32 0x7F7FFFFF#32 0x7F800000#32 ∧
      ¬LessThan .f32 0x80000000#32 0#32 ∧ ¬LessThan .f32 0#32 0x80000000#32 ∧ ¬LessThan .f32 0x7F800000#32 0x7F800000#32 := by
  refine ⟨?_, ?_, ?_, ?_, ?_⟩ <;> unfold LessThan <;> decide +kernel

theorem witness_MinimumAndMaximum :
    (isNaN .f32 0x7F800001#32 = true ∨ isNaN .f32 0#32 = true) ∧
      (isNaN .f32 0xFF800000#32 = false ∧ isNaN .f32 0xFF7FFFFF#32 = false ∧ isNaN .f32 0x80000000#32 = false) ∧
      LessThan .f32 0xFF800000#32 0xFF7FFFFF#32 ∧ ¬LessThan .f32 0x80000000#32 0#32 ∧ ¬LessThan .f32 0#32 0x80000000#32 :=
  ⟨by decide, by decide, lessThan_cases.1, lessThan_cases.2.2.1, lessThan_cases.2.2.2.1⟩

theorem witness_CompareLane :
    (isNaN .f32 0x7F800001#32 = true ∨ isNaN .f32 0#32 = true) ∧
      (isNaN .f32 0x7F800000#32 = false ∧ isNaN .f32 0x7F7FFFFF#32 = false ∧ isNaN .f32 0x80000000#32 = false) ∧
      LessThan .f32 0x7F7FFFFF#32 0x7F800000#32 ∧ ¬LessThan .f32 0x80000000#32 0#32 ∧ ¬LessThan .f32 0#32 0x80000000#32 :=
  ⟨by decide, by decide, lessThan_cases.2.1, lessThan_cases.2.2.1, lessThan_cases.2.2.2.1⟩

/-- The last pair of codes; operands on which the flags differ and on which they do not. -/
theorem witness_ComparePairsAgree :
    (15 : BitVec 5).toNat < 16 ∧
      ((isNaN .f32 0x7FC00000#32 = true ∨ isNaN .f32 0#32 = true) ∧ isSNaN .f32 0x7FC00000#32 = false ∧ isSNaN .f32 0#32 = false) ∧
      (cmpW 15 Params.widest .f32 resetStatus 0x7FC00000#32 0#32).flags
        ≠ (cmpW (15 + 16) Params.widest .f32 resetStatus 0x7FC00000#32 0#32).flags := by
  decide +kernel

/-- The largest finite number, and the largest that is not an integer. -/
theorem witness_RoundsToIntegral :
    isFinite .f32 0x7F7FFFFF#32 = true ∧ isFinite .f32 0xCAFFFFFF#32 = true ∧ Params.widest.roundDaz = false ∧
      realOf .f32 0xCAFFFFFF#32 ≠ ⌊realOf .f32 0xCAFFFFFF#32⌋ := by
  decide +kernel

/-- The exponent fields 1 and 254: the smallest normal number scaled by nothing, 1 scaled by 127. -/
theorem witness_ScalefIsExactInRange :
    (isFinite .f32 0x00800000#32 = true ∧ isZero .f32 0x00800000#32 = false ∧ isDenormal .f32 0x00800000#32 = false) ∧
      (isFinite .f32 0x42FE0000#32 = true ∧ isDenormal .f32 0x42FE0000#32 = false ∧ isDenormal .f32 0#32 = false) ∧
      (0 < (expField .f32 0x00800000#32 : ℤ) + ⌊realOf .f32 0#32⌋ ∧
        (expField .f32 0x00800000#32 : ℤ) + ⌊realOf .f32 0#32⌋ < Fmt.f32.expOnes) ∧
      (0 < (expField .f32 0x3F800000#32 : ℤ) + ⌊realOf .f32 0x42FE0000#32⌋ ∧
        (expField .f32 0x3F800000#32 : ℤ) + ⌊realOf .f32 0x42FE0000#32⌋ < Fmt.f32.expOnes) ∧
      (isInf .f32 0x7F800000#32 = true ∧ sign .f32 0x7F800000#32 = false ∧ isZero .f32 0x00000001#32 = false) ∧
      (isInf .f32 0xFF800000#32 = true ∧ sign .f32 0xFF800000#32 = true ∧ isInf .f32 0x00000001#32 = false ∧
        isNaN .f32 0x00000001#32 = false) ∧
      (isFinite .f32 0x7F7FFFFF#32 = true ∧ isNaN .f32 0xFF800000#32 = false ∧ isZero .f32 0x80000000#32 = true) := by
  decide +kernel

/-- Each clause's immediate, and two operands that differ in lane 1, which 0x10 does not select. -/
theorem witness_DotProductMasks :
    (0xF0 : BitVec 8).extractLsb' 0 4 = 0 ∧ (0x0F : BitVec 8).extractLsb' 4 4 = 0 ∧
      (∀ l < 4, (0x1F : BitVec 8).getLsbD (4 + l) = true →
        lane .f32 ⟨f32x4 1 7 7 7, 0, 0, 0⟩ (4 * (2 / 4) + l) = lane .f32 ⟨f32x4 1 2 3 4, 0, 0, 0⟩ (4 * (2 / 4) + l)) := by
  decide

/-- One operand of each clause, and both ends of the normal range. -/
theorem witness_ReciprocalBound :
    isNaN .f32 0x7F800001#32 = true ∧ isNaN .f32 0xFF800000#32 = false ∧
      (isZero .f32 0x80000000#32 = true ∨ isDenormal .f32 0x80000000#32 = true) ∧
      (isZero .f32 0x007FFFFF#32 = true ∨ isDenormal .f32 0x007FFFFF#32 = true) ∧ isInf .f32 0xFF800000#32 = true ∧
      (isFinite .f32 0x00800000#32 = true ∧ isZero .f32 0x00800000#32 = false ∧ isDenormal .f32 0x00800000#32 = false) ∧
      (isFinite .f32 0xFF7FFFFF#32 = true ∧ isZero .f32 0xFF7FFFFF#32 = false ∧ isDenormal .f32 0xFF7FFFFF#32 = false) ∧
      1 / |realOf .f32 0xFF7FFFFF#32| < (2 : ℚ) ^ (-126 : ℤ) * (1 - 3 / 2 * (2 : ℚ) ^ (-12 : ℤ)) := by
  decide +kernel

theorem witness_ReciprocalRootBound :
    isNaN .f32 0xFF800001#32 = true ∧ (isZero .f32 0x80000000#32 = true ∨ isDenormal .f32 0x80000000#32 = true) ∧
      (isInf .f32 0x7F800000#32 = true ∧ sign .f32 0x7F800000#32 = false) ∧
      (isNaN .f32 0x80800000#32 = false ∧ isZero .f32 0x80800000#32 = false ∧ isDenormal .f32 0x80800000#32 = false ∧
        sign .f32 0x80800000#32 = true) ∧
      (isFinite .f32 0x00800000#32 = true ∧ isZero .f32 0x00800000#32 = false ∧ isDenormal .f32 0x00800000#32 = false ∧
        sign .f32 0x00800000#32 = false) := by
  decide

theorem witness_RoundingModes : 0 < 1 ∧ 0 < 2 := by decide

/-- A status context with a mode. -/
def under (m : RoundMode) : Status := { resetStatus with rc := m }

/-- The numbers at which rounding begins to overflow, under each mode, and just short of it: the half below `2^128`, the largest finite
number and its successor of 25 bits, `2^128`. -/
theorem witness_OverflowResult :
    (∀ e ∈ ([(.rn, false, 33554431, 103), (.ru, false, 33554431, 103), (.rd, true, 33554431, 103), (.ru, true, 1, 128),
        (.rd, false, 1, 128), (.rz, false, 1, 128)] : List (RoundMode × Bool × Nat × ℤ)),
      (roundPack Params.widest .f32 (under e.1) e.2.1 (.ratio e.2.2.1 1 e.2.2.2)).flags.getLsbD 3 = true) ∧
    (∀ e ∈ ([(.rn, false, 67108861, 102), (.ru, false, 16777215, 104), (.rd, true, 16777215, 104), (.ru, true, 33554431, 103),
        (.rd, false, 33554431, 103), (.rz, false, 33554431, 103)] : List (RoundMode × Bool × Nat × ℤ)),
      (roundPack Params.widest .f32 (under e.1) e.2.1 (.ratio e.2.2.1 1 e.2.2.2)).flags.getLsbD 3 = false) ∧
    RoundsUpTo .f32 .rn false ((2 : ℚ) ^ (Fmt.f32.emax + 1)) ((33554431 : ℚ) / 1 * (2 : ℚ) ^ (103 : ℤ)) ∧
    ¬RoundsUpTo .f32 .ru false ((2 : ℚ) ^ (Fmt.f32.emax + 1)) ((16777215 : ℚ) / 1 * (2 : ℚ) ^ (104 : ℤ)) ∧
    (2 : ℚ) ^ (Fmt.f32.emax + 1) ≤ (1 : ℚ) / 1 * (2 : ℚ) ^ (128 : ℤ) ∧
    (16777215 : ℚ) / 1 * (2 : ℚ) ^ (104 : ℤ) ≤ realOf .f32 (maxFiniteOf .f32 false) := by
  refine ⟨by decide +kernel, by decide +kernel, ?_, ?_, by decide +kernel, by decide +kernel⟩ <;> unfold RoundsUpTo <;>
    decide +kernel

/-- A third; the largest finite number; the smallest denormal; a number far below it. -/
theorem witness_RoundPackIsNearest :
    (under .rn).rc = .rn ∧ (under .rn).ftz = false ∧
      ∀ v ∈ ([(1, 3, 0), (16777215, 1, 104), (1, 1, -149), (1, 1, -400)] : List (Nat × Nat × ℤ)),
        0 < v.1 ∧ 0 < v.2.1 ∧
          (roundPack Params.widest .f32 (under .rn) true (.ratio v.1 v.2.1 v.2.2)).flags.getLsbD 3 = false := by
  decide +kernel

/-- The same under each directed mode. -/
theorem witness_RoundPackIsDirected :
    ∀ m ∈ ([.rd, .ru, .rz] : List RoundMode), (under m).rc = m ∧ (under m).ftz = false ∧
      ∀ v ∈ ([(1, 3, 0), (16777215, 1, 104), (1, 1, -149), (1, 1, -400)] : List (Nat × Nat × ℤ)),
        0 < v.1 ∧ 0 < v.2.1 ∧
          (roundPack Params.widest .f32 (under m) true (.ratio v.1 v.2.1 v.2.2)).flags.getLsbD 3 = false := by
  decide +kernel

/-- An exact rounding, an inexact one, and one with UE. -/
theorem witness_RoundPackFlags :
    resetStatus.ftz = false ∧
      ((roundPack Params.widest .f32 resetStatus false (.ratio 1 1 0)).flags = 0) ∧
      ((roundPack Params.widest .f32 resetStatus false (.ratio 1 3 0)).flags = flagPE) ∧
      (roundPack Params.widest .f32 resetStatus false (.ratio 1 3 (-126))).flags = flagUE ||| flagPE ∧
      (roundPack Params.widest .f32 { resetStatus with masks := 0 } false (.ratio 1 1 (-130))).flags = flagUE ∧
      ((16777215 : ℚ) / 1 * (2 : ℚ) ^ (-150 : ℤ) ≤ (2 : ℚ) ^ Fmt.f32.emin * (1 - (2 : ℚ) ^ (-(Fmt.f32.p : ℤ)))) ∧
      (roundPack Params.widest .f32 resetStatus false (.ratio 33554430 1 (-151))).flags = flagUE ||| flagPE ∧
      (roundPack Params.widest .f32 resetStatus false (.ratio 33554431 1 (-151))).flags = flagPE ∧
      (roundPack { Params.widest with tininess := .before } .f32 resetStatus false (.ratio 33554431 1 (-151))).flags
        = flagUE ||| flagPE := by
  decide +kernel

/-- The largest magnitude that is flushed whatever the parameter, and the smallest of the normal range. -/
theorem witness_FlushToZero :
    ({ resetStatus with ftz := true } : Status).ftz = true ∧
      (16777215 : ℚ) / 1 * (2 : ℚ) ^ (-150 : ℤ) ≤ (2 : ℚ) ^ Fmt.f32.emin * (1 - (2 : ℚ) ^ (-(Fmt.f32.p : ℤ))) ∧
      (2 : ℚ) ^ Fmt.f32.emin ≤ (1 : ℚ) / 1 * (2 : ℚ) ^ (-126 : ℤ) := by
  decide +kernel

/-- The two ends of the finite range, and a quotient that is not exact. -/
theorem witness_ArithmeticIsCorrectlyRounded :
    (resetStatus.daz = false ∧ resetStatus.ftz = false ∧ resetStatus.rc = .rn) ∧
      (isFinite .f32 0x7F7FFFFF#32 = true ∧ isFinite .f32 0x00000001#32 = true ∧ isZero .f32 0x40400000#32 = false) ∧
      (addW Params.widest .f32 resetStatus 0x7F7FFFFF#32 0x00000001#32).flags.getLsbD 3 = false ∧
      (mulW Params.widest .f32 resetStatus 0x7F7FFFFF#32 0x00000001#32).flags.getLsbD 3 = false ∧
      (divW Params.widest .f32 resetStatus 0x00000001#32 0x40400000#32).flags.getLsbD 3 = false := by
  decide +kernel

theorem witness_SqrtIsCorrectlyRounded :
    (isFinite .f32 0x00000001#32 = true ∧ isZero .f32 0x00000001#32 = false ∧ sign .f32 0x00000001#32 = false) ∧
      (isFinite .f32 0x7F7FFFFF#32 = true ∧ isZero .f32 0x7F7FFFFF#32 = false ∧ sign .f32 0x7F7FFFFF#32 = false) ∧
      resetStatus.daz = false ∧ resetStatus.rc = .rn := by
  decide

end Sys2Proof.Tests
end

/-!
PROOF. What every step keeps (spec/00_scope.md R7, spec/10_state.md R19, R21): the parameters and the invariant of the state. First
what each operation can do, said once; then the invariant under each operation on the state; then the two statements.
-/

namespace Sys2Proof.Machine

/-! ### What each operation can do -/

/-- A list of tests that gives no reason holds no test that succeeds. -/
theorem eq_false_of_firstReason_eq_none {l : List (Bool × RefuseReason)} (h : firstReason l = none) : ∀ e ∈ l, e.1 = false := by
  induction l with
  | nil => simp
  | cons e l ih =>
    obtain ⟨b, r⟩ := e
    cases b with
    | true => simp [firstReason] at h
    | false => simpa using ih h

/-- The machine has the destination register of a legal descriptor (R45, REG_RANGE). -/
theorem hasReg_dst_of_legal {p : Params} {d : Desc} (h : refuseReason p d = none) : p.hasReg d.dst = true := by
  have hreg : d.anyReg (fun r => !p.hasReg r) = false :=
    eq_false_of_firstReason_eq_none h (d.anyReg (fun r => !p.hasReg r), .regRange) (by simp [legalChecks])
  have hnot : (!p.hasReg d.dst) = false := (Bool.or_eq_false_iff.1 (Bool.or_eq_false_iff.1 hreg).1).1
  simpa using hnot

/-- A call that reports an unmasked flag takes the exception, with the flags recorded and nothing else written (R211). -/
theorem commit_of_unmasked {d : Desc} {o : CallOut} {s : State} (h : unmasked s.mxcsr o.flags ≠ 0) :
    commit d o s = takeException (s.stick (recorded s.cfg s.mxcsr o.flags)) :=
  if_pos (bne_iff_ne.2 h)

/-- A call that reports masked flags alone writes what it has to write, and completes (R211). -/
theorem commit_of_masked {d : Desc} {o : CallOut} {s : State} (h : unmasked s.mxcsr o.flags = 0) :
    commit d o s =
      complete { (if o.we then (s.stick o.flags).writeX d.dst o.r else s.stick o.flags) with
        cond := if o.ccv then { CondFlags.clear with zf := o.zf, cf := o.cf } else s.cond } := by
  have hrec : recorded s.cfg s.mxcsr o.flags = o.flags := recorded_of_masked s h
  unfold commit
  simp only [h, hrec]
  cases o.we <;> cases o.ccv <;> rfl

/-- Every instruction is one call of its own descriptor: a sign test for TEST, a call that may draw free values for SCALEF, a plain
call for every other operation. -/
theorem exec_cases (i : Instr) (s : State) :
    (∃ f op, exec i s = call i.desc f op s) ∨
      (i.desc.op = Op.scalef.code ∧ ∃ f op, exec i s = callDrawing i.desc f op s) ∨
      (i.desc.op = Op.test.code ∧ ∃ f, exec i s = callTest i.desc f s) := by
  cases i with
  | vscalefps | vscalefpd | vscalefss | vscalefsd => exact .inr (.inl ⟨rfl, _, _, rfl⟩)
  | vtestps | vtestpd => exact .inr (.inr ⟨rfl, _, rfl⟩)
  | _ => exact .inl ⟨_, _, rfl⟩

/-- An instruction that answers a next state has a legal descriptor, and that state is the commit of a call, the counter of free
values apart. -/
theorem exec_next {i : Instr} {s t : State} (h : exec i s = .next t) :
    refuseReason s.cfg i.desc = none ∧ ∃ o n, t = commit i.desc o { s with draws := n } := by
  obtain ⟨f, op, he⟩ | ⟨-, f, op, he⟩ | ⟨-, f, he⟩ := exec_cases i s
  · obtain ⟨hl, ht⟩ := call_eq_next.1 (he ▸ h)
    exact ⟨hl, _, s.draws, ht⟩
  · obtain ⟨hl, ht⟩ := call_eq_next.1 (he ▸ h : callDrawing i.desc f op s = .next t)
    exact ⟨hl, _, _, ht⟩
  · obtain ⟨hl, ht⟩ := callTest_eq_next.1 (he ▸ h)
    exact ⟨hl, _, s.draws, ht⟩

/-- A write of a vector register is done when the machine has the register, and stops otherwise (R19). -/
theorem coreWriteX_eq_next {r : VReg} {v : VecWord} {s t : State} :
    coreWriteX r v s = .next t ↔ s.cfg.hasReg r = true ∧ t = s.writeX r v := by
  unfold coreWriteX
  cases s.cfg.hasReg r <;> simp [eq_comm]

/-- A write of MXCSR is done when it leaves the reserved bits zero, and stops otherwise (R21). -/
theorem coreWriteMxcsr_eq_next {v : BitVec 32} {s t : State} :
    coreWriteMxcsr v s = .next t ↔ v.extractLsb' 16 16 = 0 ∧ t = { s with mxcsr := v } := by
  unfold coreWriteMxcsr
  split <;> simp_all [eq_comm]

/-- All that a step can do: nothing without an input, the instruction of a call that decodes, or an action of the core's. -/
theorem step_cases {s t : State} (h : step s = .next t) :
    (s.inputs = [] ∧ t = s) ∨
      (∃ w m rest i, s.inputs = .call w m :: rest ∧ decode s.cfg w = .ok i ∧ exec i s = .next t) ∨
      (∃ c rest, s.inputs = c :: rest ∧ (∀ w m, c ≠ .call w m) ∧ coreAction c s = .next t) := by
  unfold step at h
  split at h
  next hin => exact .inl ⟨hin, (Host.Outcome.next.inj h).symm⟩
  next w m rest hin =>
    unfold sendCall at h
    split at h
    next => cases h
    next i hi => exact .inr (.inl ⟨w, m, rest, i, hin, hi, h⟩)
  next c rest hcall hin => exact .inr (.inr ⟨c, rest, hin, fun w m hc => hcall w m hc, h⟩)

/-! ### The parameters -/

@[simp] theorem commit_cfg (d : Desc) (o : CallOut) (s : State) : (commit d o s).cfg = s.cfg := by
  by_cases h : unmasked s.mxcsr o.flags = 0
  · rw [commit_of_masked h]
    cases o.we <;> rfl
  · rw [commit_of_unmasked h]
    rfl

/-- No instruction changes the parameters (R228). -/
theorem exec_cfg {i : Instr} {s t : State} (h : exec i s = .next t) : t.cfg = s.cfg := by
  obtain ⟨-, o, n, rfl⟩ := exec_next h
  exact commit_cfg _ _ _

/-- No action of the core's changes the parameters (R228). -/
theorem coreAction_cfg {c : CoreInput} {s t : State} (h : coreAction c s = .next t) : t.cfg = s.cfg := by
  cases c with
  | writeX r v =>
    obtain ⟨-, rfl⟩ := coreWriteX_eq_next.1 h
    rfl
  | writeMxcsr v =>
    obtain ⟨-, rfl⟩ := coreWriteMxcsr_eq_next.1 h
    rfl
  | handlerReturn m =>
    obtain ⟨_, _, -, rfl⟩ := returnFromException_eq_next.1 h
    rfl
  | call | writeK | writeOsxmmexcpt | writeCond | init | powerOn =>
    cases h
    rfl

/-! ### The invariant under each operation -/

/-- The invariant speaks of the parameters, the vector registers, MXCSR and the exceptions being handled alone, and an exception
may leave the list. -/
theorem State.Wf.of_frame {s t : State} (h : s.Wf) (hcfg : t.cfg = s.cfg) (hx : t.x = s.x) (hmx : t.mxcsr = s.mxcsr)
    (htraps : t.traps ⊆ s.traps) : t.Wf := by
  obtain ⟨hregs, hres, hcalls⟩ := h
  have hread (r : VReg) : t.readX r = s.readX r := by simp [State.readX, hx]
  refine ⟨fun r => ?_, hmx ▸ hres, fun f hf => hcalls f (htraps hf)⟩
  rw [hcfg, hread]
  exact hregs r

/-- Writing MXCSR keeps the invariant when the reserved bits stay zero (R21). -/
theorem State.Wf.writeMxcsr {s : State} (h : s.Wf) {v : BitVec 32} (hv : v.extractLsb' 16 16 = 0) :
    ({ s with mxcsr := v } : State).Wf := by
  obtain ⟨hregs, -, hcalls⟩ := h
  exact ⟨hregs, hv, hcalls⟩

/-- The flags lie below MXCSR's reserved bits (R21). -/
theorem reserved_or_flags (v : BitVec 32) (fl : FlagSet) :
    (v ||| fl.zeroExtend 32).extractLsb' 16 16 = v.extractLsb' 16 16 := by
  ext b hb
  have hlow : fl.getLsbD (16 + b) = false := BitVec.getLsbD_of_ge _ _ (by omega)
  simp [hlow]

theorem State.Wf.stick {s : State} (h : s.Wf) (fl : FlagSet) : (s.stick fl).Wf := by
  have ⟨_, hres, _⟩ := h
  exact h.writeMxcsr ((reserved_or_flags s.mxcsr fl).trans hres)

/-- A register that the machine has takes any value, of which it holds MAXVL bits (R7, R19). -/
theorem State.Wf.writeX {s : State} (h : s.Wf) {r : VReg} (hr : s.cfg.hasReg r = true) (v : VecWord) : (s.writeX r v).Wf := by
  obtain ⟨hregs, hres, hcalls⟩ := h
  refine ⟨fun q => ?_, hres, hcalls⟩
  rw [State.writeX_cfg]
  by_cases hq : q = r
  · subst hq
    rw [State.readX_writeX_self]
    exact ⟨fitsWidth_clip _ _, .inl hr⟩
  · rw [State.readX_writeX_ne _ _ hq]
    exact hregs q

theorem State.Wf.complete {s : State} (h : s.Wf) : (complete s).Wf := h.of_frame rfl rfl rfl (List.Subset.refl _)

/-- The exception that a call raises keeps that call (R212). -/
theorem State.Wf.takeException {s : State} (h : s.Wf) {w : BitVec 64} {m : VecWord} {rest : List CoreInput}
    (hin : s.inputs = .call w m :: rest) : (takeException s).Wf := by
  obtain ⟨hregs, hres, hcalls⟩ := h
  refine ⟨hregs, hres, fun f hf => ?_⟩
  rw [takeException_traps, hin] at hf
  obtain rfl | hf := List.mem_cons.1 hf
  · rfl
  · exact hcalls f hf

/-- The commit of a call keeps the invariant when the machine has the call's destination. -/
theorem State.Wf.commit {s : State} (h : s.Wf) {d : Desc} (hdst : s.cfg.hasReg d.dst = true) (o : CallOut) {w : BitVec 64}
    {m : VecWord} {rest : List CoreInput} (hin : s.inputs = .call w m :: rest) : (commit d o s).Wf := by
  by_cases hm : unmasked s.mxcsr o.flags = 0
  · have hwritten : (if o.we then (s.stick o.flags).writeX d.dst o.r else s.stick o.flags).Wf := by
      split
      · exact (h.stick _).writeX hdst _
      · exact h.stick _
    rw [commit_of_masked hm]
    exact State.Wf.complete (hwritten.of_frame rfl rfl rfl (List.Subset.refl _))
  · rw [commit_of_unmasked hm]
    exact (h.stick _).takeException hin

/-- The state after reset meets the invariant, whatever the parameters (R226). -/
theorem resetWith_wf (p : Params) : (State.resetWith p).Wf := by
  have hread (r : VReg) : (State.resetWith p).readX r = VecWord.zero := by simp [State.readX, State.resetWith]
  have hres : mxcsrReset.extractLsb' 16 16 = 0 := by decide
  refine ⟨fun r => ?_, hres, fun f hf => absurd hf List.not_mem_nil⟩
  rw [hread]
  exact ⟨by simp [fitsWidth, VecWord.zero], .inr rfl⟩

/-! ### The invariant under a step -/

/-- The instruction of a call keeps the invariant. -/
theorem exec_keeps_wf {i : Instr} {s t : State} (hwf : s.Wf) {w : BitVec 64} {m : VecWord} {rest : List CoreInput}
    (hin : s.inputs = .call w m :: rest) (h : exec i s = .next t) : t.Wf := by
  obtain ⟨hlegal, o, n, rfl⟩ := exec_next h
  have hdraws : ({ s with draws := n } : State).Wf := hwf.of_frame rfl rfl rfl (List.Subset.refl _)
  exact hdraws.commit (hasReg_dst_of_legal hlegal) o hin

/-- Every action of the core's keeps the invariant. -/
theorem coreAction_keeps_wf {c : CoreInput} {s t : State} (hwf : s.Wf) (h : coreAction c s = .next t) : t.Wf := by
  cases c with
  | writeX r v =>
    obtain ⟨hr, rfl⟩ := coreWriteX_eq_next.1 h
    exact hwf.complete.writeX hr v
  | writeMxcsr v =>
    obtain ⟨hv, rfl⟩ := coreWriteMxcsr_eq_next.1 h
    exact hwf.complete.writeMxcsr hv
  | handlerReturn m =>
    obtain ⟨f, fs, hf, rfl⟩ := returnFromException_eq_next.1 h
    exact hwf.of_frame rfl rfl rfl (hf ▸ List.subset_cons_self f fs)
  | init =>
    cases h
    exact hwf.of_frame rfl rfl rfl (List.nil_subset _)
  | powerOn =>
    cases h
    exact (resetWith_wf s.cfg).of_frame rfl rfl rfl (List.Subset.refl _)
  | call | writeK | writeOsxmmexcpt | writeCond =>
    cases h
    exact hwf.of_frame rfl rfl rfl (List.Subset.refl _)

/-! ### The statements -/

/-- Settles O7: by what a step can do, from the invariant under the instruction of a call and under an action of the core's. -/
theorem stepKeepsInvariant : Obligations.StepKeepsInvariant := by
  intro s t hwf h
  obtain ⟨-, rfl⟩ | ⟨w, m, rest, i, hin, -, hexec⟩ | ⟨c, rest, -, -, hact⟩ := step_cases h
  · exact hwf
  · exact exec_keeps_wf hwf hin hexec
  · exact coreAction_keeps_wf hwf hact

/-- Settles O9: by what a step can do, since neither an instruction nor an action of the core's writes the parameters. -/
theorem stepKeepsParameters : Obligations.StepKeepsParameters := by
  intro s t h
  obtain ⟨-, rfl⟩ | ⟨w, m, rest, i, -, -, hexec⟩ | ⟨c, rest, -, -, hact⟩ := step_cases h
  · rfl
  · exact exec_cfg hexec
  · exact coreAction_cfg hact

end Sys2Proof.Machine

/-!
PROOF. The core's side of a step and the frame of an instruction (spec/10_state.md R14 to R24, spec/60_exceptions.md R211 to R216):
what a step does with a call and with an action of the core's, what the commit of a call leaves unchanged, which exceptions are
being handled after a call.
-/

namespace Sys2Proof.Machine

/-! ### The step on each kind of input -/

/-- A call is decoded, and its instruction run. -/
theorem step_call {s : State} {w : BitVec 64} {m : VecWord} {rest : List CoreInput} (hin : s.inputs = .call w m :: rest) :
    step s = sendCall exec w s := by
  simp only [step, hin]

/-- An input that is no call is an action of the core's. -/
theorem step_action {s : State} {c : CoreInput} {rest : List CoreInput} (hin : s.inputs = c :: rest)
    (hc : ∀ w m, c ≠ .call w m) : step s = coreAction c s := by
  cases c with
  | call w m => exact absurd rfl (hc w m)
  | _ => simp only [step, hin]

theorem sendCall_of_decode {run : Instr → State → Host.Outcome State Fault Refusal} {w : BitVec 64} {s : State} {i : Instr}
    (h : decode s.cfg w = .ok i) : sendCall run w s = run i s := by
  simp only [sendCall, h]

theorem sendCall_of_illegal {run : Instr → State → Host.Outcome State Fault Refusal} {w : BitVec 64} {s : State}
    {r : RefuseReason} (h : decode s.cfg w = .error r) : sendCall run w s = .refused (.descriptor r) := by
  simp only [sendCall, h]

/-- Settles O5: the step on a call, by what the call's descriptor decodes to. -/
theorem stepRunsTheInstruction : Obligations.StepRunsTheInstruction := by
  intro s w m rest i hin hi
  rw [step_call hin, sendCall_of_decode hi]

/-- Settles O6: the step on a call, by the reason its descriptor is refused for. -/
theorem stepRefusesIllegalDescriptors : Obligations.StepRefusesIllegalDescriptors := by
  intro s w m rest r hin hr
  rw [step_call hin, sendCall_of_illegal hr]

/-- Settles O8: the state after reset meets the invariant for any parameters, those of `State.reset` among them. -/
theorem resetHasInvariant : Obligations.ResetHasInvariant := ⟨resetWith_wf _, resetWith_wf⟩

/-! ### The core's writes -/

/-- MXCSR's reserved bits are zero in the values below 2^16 alone (R21). -/
theorem reserved_eq_zero_iff (v : BitVec 32) : v.extractLsb' 16 16 = 0 ↔ v.toNat < 65536 := by
  rw [← BitVec.toNat_inj, BitVec.extractLsb'_toNat, Nat.shiftRight_eq_div_pow]
  have hv := v.isLt
  simp only [BitVec.ofNat_eq_ofNat, BitVec.toNat_ofNat]
  omega

/-- What a step leaves of a state whose first input is done. -/
theorem complete_eq {s : State} {c : CoreInput} {rest : List CoreInput} (hin : s.inputs = c :: rest) :
    complete s = { s with inputs := rest } := by
  simp only [complete, hin, List.tail_cons]

/-- Settles O31: each write is the core's action, done on the state without that input. -/
theorem coreWrites : Obligations.CoreWrites := by
  refine ⟨fun s v rest hin => ?_, fun s r v rest hin hr hv => ?_, fun s r v rest hin => ?_, fun s b rest hin => ?_,
    fun s c rest hin => ?_⟩
  · rw [step_action hin nofun, coreAction, coreWriteMxcsr, complete_eq hin]
    simp only [reserved_eq_zero_iff]
    split <;> rfl
  · refine ⟨(complete s).writeX r v, ?_, ?_, fun q hq => ?_, rfl, rfl⟩
    · rw [step_action hin nofun]
      exact coreWriteX_eq_next.2 ⟨hr, rfl⟩
    · rw [State.readX_writeX_self]
      exact clip_of_fitsWidth hv
    · exact State.readX_writeX_ne _ _ hq
  · refine ⟨(complete s).writeK r v, step_action hin nofun, State.readK_writeK_self _ _ _, fun q hq => ?_, rfl, rfl⟩
    exact State.readK_writeK_ne _ _ hq
  · rw [step_action hin nofun, coreAction, complete_eq hin]
  · rw [step_action hin nofun, coreAction, complete_eq hin]

/-! ### The frame of a commit -/

/-- The commit of a call, completed or not, takes the call from the inputs and leaves the mask registers, CR4.OSXMMEXCPT and the
model's counter alone (R211). -/
theorem commit_frame (d : Desc) (o : CallOut) (s : State) :
    (commit d o s).k = s.k ∧ (commit d o s).osxmmexcpt = s.osxmmexcpt ∧ (commit d o s).inputs = s.inputs.tail ∧
      (commit d o s).draws = s.draws := by
  by_cases h : unmasked s.mxcsr o.flags = 0
  · rw [commit_of_masked h]
    cases o.we <;> exact ⟨rfl, rfl, rfl, rfl⟩
  · rw [commit_of_unmasked h]
    exact ⟨rfl, rfl, rfl, rfl⟩

/-- The commit of a call only sets flags in MXCSR (R211). -/
theorem commit_mxcsr (d : Desc) (o : CallOut) (s : State) :
    ∃ fl : FlagSet, (commit d o s).mxcsr = s.mxcsr ||| fl.zeroExtend 32 := by
  by_cases h : unmasked s.mxcsr o.flags = 0
  · rw [commit_of_masked h]
    exact ⟨o.flags, by cases o.we <;> rfl⟩
  · rw [commit_of_unmasked h]
    exact ⟨_, rfl⟩

/-- A register that the call does not write is unchanged (R19, R211). -/
theorem commit_readX {d : Desc} {o : CallOut} (s : State) {r : VReg} (hr : o.we = true → r ≠ d.dst) :
    (commit d o s).readX r = s.readX r := by
  by_cases h : unmasked s.mxcsr o.flags = 0
  · rw [commit_of_masked h]
    cases hw : o.we with
    | false => rfl
    | true => exact (s.stick o.flags).readX_writeX_ne o.r (hr hw)
  · rw [commit_of_unmasked h]
    rfl

/-- A call that gives no condition flags leaves them (R24, R211). -/
theorem commit_cond {d : Desc} {o : CallOut} (s : State) (hc : o.ccv = false) : (commit d o s).cond = s.cond := by
  by_cases h : unmasked s.mxcsr o.flags = 0
  · rw [commit_of_masked h, hc]
    rfl
  · rw [commit_of_unmasked h]
    rfl

/-- A call that completes takes no exception; one that does not takes `#XM` or `#UD` at itself (R212). -/
theorem commit_traps (d : Desc) (o : CallOut) (s : State) :
    (commit d o s).traps = s.traps ∨
      (commit d o s).traps = { vector := if s.osxmmexcpt then .xm else .ud, faulting := s.inputs.head? } :: s.traps := by
  by_cases h : unmasked s.mxcsr o.flags = 0
  · rw [commit_of_masked h]
    exact .inl (by cases o.we <;> rfl)
  · rw [commit_of_unmasked h]
    exact .inr rfl

/-! ### The frame of an instruction -/

/-- TEST is a sign test, in both its forms (R206, R207). -/
theorem exec_of_test {i : Instr} (h : i.desc.op = Op.test.code) (s : State) : ∃ f, exec i s = callTest i.desc f s := by
  cases i with
  | vtestps | vtestpd => exact ⟨_, rfl⟩
  | _ => exact absurd h (ne_of_beq_false rfl)

/-- What an instruction that answers a next state has committed: a call that writes its destination and no condition flag, or, for
TEST, one that writes condition flags and no register; only SCALEF moves the counter of free values (R24, R93, R135). -/
theorem exec_next_shape {i : Instr} {s t : State} (h : exec i s = .next t) :
    ∃ o n, t = commit i.desc o { s with draws := n } ∧ (i.desc.op ≠ Op.scalef.code → n = s.draws) ∧
      (i.desc.op ≠ Op.test.code → o.ccv = false) ∧ (i.desc.op = Op.test.code → o.we = false) := by
  by_cases htest : i.desc.op = Op.test.code
  · obtain ⟨f, he⟩ := exec_of_test htest s
    obtain ⟨-, rfl⟩ := callTest_eq_next.1 (he ▸ h)
    exact ⟨_, s.draws, rfl, fun _ => rfl, absurd htest, fun _ => rfl⟩
  obtain ⟨f, op, he⟩ | ⟨hscalef, f, op, he⟩ | ⟨htest', -⟩ := exec_cases i s
  · obtain ⟨-, rfl⟩ := call_eq_next.1 (he ▸ h)
    exact ⟨_, s.draws, rfl, fun _ => rfl, fun _ => rfl, fun ht => absurd ht htest⟩
  · obtain ⟨-, rfl⟩ := call_eq_next.1 (he ▸ h : callDrawing i.desc f op s = .next t)
    exact ⟨_, _, rfl, absurd hscalef, fun _ => rfl, fun ht => absurd ht htest⟩
  · exact absurd htest' htest

/-- Settles O10: every instruction commits one call, and the frame is the commit's. -/
theorem execFrame : Obligations.ExecFrame := by
  intro i s t h
  obtain ⟨o, n, rfl, hdraws, hcond, hwe⟩ := exec_next_shape h
  obtain ⟨hk, hos, hinputs, hn⟩ := commit_frame i.desc o { s with draws := n }
  obtain ⟨fl, hmx⟩ := commit_mxcsr i.desc o { s with draws := n }
  refine ⟨fun r hr => ?_, hk, hos, commit_cfg _ _ _, hinputs, fun b hb => ?_, fun b hb => ?_, fun hop => ?_, fun hop => ?_⟩
  · have hne : o.we = true → r ≠ i.desc.dst := by
      rintro hw rfl
      have hop : i.desc.op ≠ 16 := fun hop => Bool.false_ne_true ((hwe hop).symm.trans hw)
      exact hr (if_neg hop)
    exact commit_readX { s with draws := n } hne
  · rw [hmx, BitVec.getLsbD_or, BitVec.getLsbD_setWidth, BitVec.getLsbD_of_ge fl b hb, Bool.and_false, Bool.or_false]
  · rw [hmx, BitVec.getLsbD_or, hb, Bool.true_or]
  · exact commit_cond { s with draws := n } (hcond hop)
  · exact hn.trans (hdraws hop)

/-! ### The handler's return -/

/-- An instruction that changes the exceptions being handled has taken one, at the call in front of the inputs (R212). -/
theorem exec_traps {i : Instr} {s t : State} (h : exec i s = .next t) :
    t.traps = s.traps ∨
      t.traps = { vector := if s.osxmmexcpt then .xm else .ud, faulting := s.inputs.head? } :: s.traps := by
  obtain ⟨-, o, n, rfl⟩ := exec_next h
  exact commit_traps i.desc o { s with draws := n }

/-- Settles O29: the fault has kept the call, and the return puts it in front of the inputs again. -/
theorem handlerReturnSendsCallAgain : Obligations.HandlerReturnSendsCallAgain := by
  intro i s t u w m m' rest hin hi hst hfault htraps hcfg hret
  rw [stepRunsTheInstruction s w m rest i hin hi] at hst
  have hkept : u.traps = { vector := if s.osxmmexcpt then .xm else .ud, faulting := some (.call w m) } :: s.traps := by
    rw [htraps, (exec_traps hst).resolve_left hfault, hin]
    rfl
  refine ⟨{ u with traps := s.traps, inputs := .call w m' :: rest }, ?_, rfl, rfl, rfl, rfl, rfl, ?_⟩
  · rw [step_action hret nofun]
    exact returnFromException_eq_next.2 ⟨_, _, hkept, by rw [hret]; rfl⟩
  · exact stepRunsTheInstruction _ w m' rest i rfl (by rw [← hi, ← hcfg])

end Sys2Proof.Machine

/-!
PROOF. An instruction that has a legal descriptor is well formed and has its operands (spec/30_encoding.md R45), so an ill-formed one
is refused: what each legality test says of the fields of the two forms, then the instructions by the shape of their operands.
-/

namespace Sys2Proof.Machine

/-! ### What the legality tests say of a descriptor -/

/-- Every test of `legal` fails on a legal descriptor. -/
theorem test_eq_false_of_legal {p : Params} {d : Desc} (h : refuseReason p d = none) {b : Bool} (r : RefuseReason)
    (hb : (b, r) ∈ legalChecks p d) : b = false := eq_false_of_firstReason_eq_none h (b, r) hb

/-- No register field of the descriptor has the property, field by field. -/
theorem anyReg_not_eq_false {d : Desc} {f : VReg → Bool} :
    d.anyReg (fun r => !f r) = false ↔ f d.dst = true ∧ f d.src1 = true ∧ f d.src2 = true := by
  simp [Desc.anyReg, and_assoc]

/-- The register of operand B is among the first sixteen when its SRC2 field is. -/
theorem low_index_eq (src : Src) : VReg.low src.index = src.low := by
  cases src <;> rfl

/-- The parameters have operand B's register when they have that of its SRC2 field. -/
theorem hasReg_index_eq (p : Params) (src : Src) : p.hasReg src.index = p.hasSrc src := by
  cases src <;> rfl

/-- A legal legacy form names registers of the first sixteen, which every machine has (REG_RANGE_LEGACY). -/
theorem legacy_of_legal {p : Params} {op : Op} {scalar dbl : Bool} {dst : VReg} {src : Src} {imm : BitVec 8}
    (h : refuseReason p (.legacy op scalar dbl dst src imm) = none) :
    (VReg.low dst && src.low) = true ∧ (p.hasReg dst && p.hasSrc src) = true := by
  have hlow : (!VReg.low dst || !VReg.low src.index) = false :=
    test_eq_false_of_legal h .regRangeLegacy (by simp [legalChecks, Desc.legacy])
  rw [low_index_eq] at hlow
  have hd : VReg.low dst = true := by simpa using (Bool.or_eq_false_iff.1 hlow).1
  have hs : src.low = true := by simpa using (Bool.or_eq_false_iff.1 hlow).2
  rw [hd, hs, hasReg_of_low hd, ← hasReg_index_eq, hasReg_of_low (Src.low_index hs)]
  exact ⟨rfl, rfl⟩

section NonLegacy

variable {p : Params} {op : Op} {scalar dbl : Bool} {vl : VLen} {ev : Evex} {dst src1 : VReg} {src2 : Src} {imm : BitVec 8}

/-- A legal non-legacy form zeroes under a mask alone, and the machine has its length and its registers (ZEROING_WITHOUT_MASK,
VL_EXCEEDS_MAXVL, REG_RANGE). -/
theorem nonLegacy_of_legal (h : refuseReason p (.nonLegacy op scalar dbl vl ev dst src1 src2 imm) = none) :
    ev.maskOk = true ∧ p.hasLength vl = true ∧ p.hasReg dst = true ∧ p.hasReg src1 = true ∧ p.hasSrc src2 = true := by
  have hmask : (ev.kz && ev.ksel == 0) = false :=
    test_eq_false_of_legal h .zeroingWithoutMask (by simp [legalChecks, Desc.nonLegacy])
  have hlen : (vl.code == 2 && p.maxvl == .w256) = false :=
    test_eq_false_of_legal h .vlExceedsMaxvl (by simp [legalChecks, Desc.nonLegacy])
  have hregs : (Desc.nonLegacy op scalar dbl vl ev dst src1 src2 imm).anyReg (fun r => !p.hasReg r) = false :=
    test_eq_false_of_legal h .regRange (by simp [legalChecks])
  obtain ⟨hd, ha, hb⟩ := anyReg_not_eq_false.1 hregs
  refine ⟨?_, ?_, hd, ha, (hasReg_index_eq p src2).symm.trans hb⟩
  · unfold Evex.maskOk
    cases hkz : ev.kz <;> simp_all
  · unfold Params.hasLength
    cases hm : p.maxvl <;> cases vl <;> simp_all [VLen.code]

/-- A legal non-legacy form of an operation that has no EVEX form names registers of the first sixteen, and is not 512 bits long
(REG_RANGE_VEX, NO_512_FORM). -/
theorem vex_of_legal (h : refuseReason p (.nonLegacy op scalar dbl vl ev dst src1 src2 imm) = none)
    (hop : arithOps.any (· == op) = false) :
    vl.vex = true ∧ VReg.low dst = true ∧ VReg.low src1 = true ∧ src2.low = true := by
  have harith : (Desc.nonLegacy op scalar dbl vl ev dst src1 src2 imm).opIn arithOps = false := (opIn_of_code rfl _).trans hop
  have hlen : (vl.code == 2 && !(Desc.nonLegacy op scalar dbl vl ev dst src1 src2 imm).opIn arithOps) = false :=
    test_eq_false_of_legal h .no512Form (by simp [legalChecks, Desc.nonLegacy])
  have hregs : (!(Desc.nonLegacy op scalar dbl vl ev dst src1 src2 imm).opIn arithOps &&
      (Desc.nonLegacy op scalar dbl vl ev dst src1 src2 imm).anyReg (fun r => !VReg.low r)) = false :=
    test_eq_false_of_legal h .regRangeVex (by simp [legalChecks])
  rw [harith] at hlen hregs
  obtain ⟨hd, ha, hb⟩ := anyReg_not_eq_false.1 hregs
  refine ⟨?_, hd, ha, (low_index_eq src2).symm.trans hb⟩
  cases vl with
  | v128 | v256 => rfl
  | v512 => simp [VLen.code] at hlen

/-- A legal non-legacy MIN or MAX has no rounding override (NO_ROUNDING_OVERRIDE). -/
theorem noRounding_of_legal (h : refuseReason p (.nonLegacy op scalar dbl vl ev dst src1 src2 imm) = none)
    (hop : [Op.min, .max].any (· == op) = true) : ev.noRounding = true := by
  have hmm : (Desc.nonLegacy op scalar dbl vl ev dst src1 src2 imm).opIn [.min, .max] = true := (opIn_of_code rfl _).trans hop
  have hrcv : (ev.rcv && (Desc.nonLegacy op scalar dbl vl ev dst src1 src2 imm).opIn [.min, .max]) = false :=
    test_eq_false_of_legal h .noRoundingOverride (by simp [legalChecks, Desc.nonLegacy])
  rw [hmm, Bool.and_true] at hrcv
  simpa [Evex.noRounding, Evex.rcv] using hrcv

end NonLegacy

/-! ### Every instruction -/

/-- An instruction with a legal descriptor is well formed, and the machine has its length and registers (R45). -/
theorem wellFormed_of_legal {p : Params} {i : Instr} (h : refuseReason p i.desc = none) :
    i.wellFormed = true ∧ i.fits p = true := by
  cases i with
  | addps | addpd | addss | addsd | subps | subpd | subss | subsd | mulps | mulpd | mulss | mulsd | divps | divpd | divss | divsd
  | minps | minpd | minss | minsd | maxps | maxpd | maxss | maxsd | sqrtps | sqrtpd | sqrtss | sqrtsd
  | roundps | roundpd | roundss | roundsd | haddps | haddpd | hsubps | hsubpd | addsubps | addsubpd
  | cmpps | cmppd | cmpss | cmpsd | dpps | rcpps | rcpss | rsqrtps | rsqrtss =>
    exact legacy_of_legal h
  | vaddps | vaddpd | vaddss | vaddsd | vsubps | vsubpd | vsubss | vsubsd | vmulps | vmulpd | vmulss | vmulsd
  | vdivps | vdivpd | vdivss | vdivsd | vsqrtps | vsqrtpd | vsqrtss | vsqrtsd
  | vscalefps | vscalefpd | vscalefss | vscalefsd =>
    obtain ⟨hmask, hlen, hdst, hsrc1, hsrc2⟩ := nonLegacy_of_legal h
    exact ⟨hmask, by simp only [Instr.fits, hlen, hdst, hsrc1, hsrc2, Bool.and_self]⟩
  | vminps | vminpd | vminss | vminsd | vmaxps | vmaxpd | vmaxss | vmaxsd =>
    obtain ⟨hmask, hlen, hdst, hsrc1, hsrc2⟩ := nonLegacy_of_legal h
    have hround := noRounding_of_legal h rfl
    exact ⟨by simp only [Instr.wellFormed, hmask, hround, Bool.and_self],
      by simp only [Instr.fits, hlen, hdst, hsrc1, hsrc2, Bool.and_self]⟩
  | vroundps | vroundpd | vroundss | vroundsd | vhaddps | vhaddpd | vhsubps | vhsubpd | vaddsubps | vaddsubpd
  | vcmpps | vcmppd | vcmpss | vcmpsd | vdpps | vrcpps | vrcpss | vrsqrtps | vrsqrtss | vtestps | vtestpd =>
    obtain ⟨-, hlen, hdst, hsrc1, hsrc2⟩ := nonLegacy_of_legal h
    obtain ⟨hvex, hlow, hlow1, hlow2⟩ := vex_of_legal h rfl
    exact ⟨by simp only [Instr.wellFormed, hvex, hlow, hlow1, hlow2, Bool.and_self],
      by simp only [Instr.fits, hlen, hdst, hsrc1, hsrc2, Bool.and_self]⟩

/-- An instruction whose descriptor is not legal is refused by the reason `legal` gives (R15). -/
theorem exec_of_illegal {i : Instr} {s : State} {r : RefuseReason} (h : refuseReason s.cfg i.desc = some r) :
    exec i s = .refused (.descriptor r) := by
  obtain ⟨f, op, he⟩ | ⟨-, f, op, he⟩ | ⟨-, f, he⟩ := exec_cases i s
  · simp only [he, call, h]
  · simp only [he, callDrawing, call, h]
  · simp only [he, callTest, h]

/-- Settles O13: were its descriptor legal, the instruction would be well formed and have its operands. -/
theorem illFormedIsRefused : Obligations.IllFormedIsRefused := by
  intro i s hill
  obtain ⟨r, hr⟩ := Option.ne_none_iff_exists'.1 fun hlegal => hill (wellFormed_of_legal hlegal)
  exact ⟨r, exec_of_illegal hr⟩

end Sys2Proof.Machine

/-!
PROOF. The EVEX forms whose lanes are one primitive each (spec/42_lane_resolver.md R87 to R95): each form is one call of its own
descriptor with its primitive in every lane, so the result, the report and the commit are those of the call.
-/

namespace Sys2Proof.Machine

/-! ### Which call each form is -/

/-- The operations with EVEX forms round by MXCSR or by the override, as ROUND does not, and all build a status context (R53, R54). -/
theorem arith_not_round : ∀ op ∈ arithOps, [Op.round].any (· == op) = false := by decide

theorem arith_statusAffecting {op : Op} (h : op ∈ arithOps) {d : Desc} (hd : d.op = op.code) : statusAffecting d = true := by
  have hnot : ∀ op ∈ arithOps, [Op.rcp, .rsqrt, .test].any (· == op) = false := by decide
  simp only [statusAffecting, opIn_of_code hd, hnot op h, Bool.not_false]

/-- Operand A is `src1`, or it is a register that the primitive does not read (R95). -/
def IsOperandA (f : Fmt) (prim : Primitive) (src1 a : VReg) : Prop :=
  a = src1 ∨ ∀ p st x y b, prim p f st x b = prim p f st y b

/-- The lanes of a primitive are those of operand A, as the form names it. -/
theorem IsOperandA.binaryLanes_eq {f : Fmt} {prim : Primitive} {src1 a : VReg} (h : IsOperandA f prim src1 a) (s : State)
    (st : Status) (b : VecWord) :
    binaryLanes f prim s.cfg st (s.readX a) b = fun i => prim s.cfg f st (lane f (s.readX src1) i) (lane f b i) := by
  obtain rfl | hprim := h
  · rfl
  · exact funext fun i => hprim _ _ _ _ _

/-- A packed form with the primitive is one call, and which one; SQRT, the last two, reads no operand A. -/
theorem evexPackedForms_call : ∀ e ∈ evexPackedForms, ∀ (vl : VLen) (ev : Evex) (dst src1 : VReg) (src2 : Src),
    (∀ s, exec (e.1 vl ev dst src1 src2) s =
      call (e.1 vl ev dst src1 src2).desc e.2.1 (binaryLanes e.2.1 e.2.2) s) ∧
    ∃ op ∈ arithOps, ∃ dbl a, IsOperandA e.2.1 e.2.2 src1 a ∧
      (e.1 vl ev dst src1 src2).desc = .nonLegacy op false dbl vl ev dst a src2 0 := by
  simp only [evexPackedForms, List.forall_mem_cons]
  refine ⟨?_, ?_, ?_, ?_, ?_, ?_, ?_, ?_, ?_, ?_, ?_, ?_, ?_, ?_, nofun⟩ <;> intro vl ev dst src1 src2
  case refine_13 | refine_14 => exact ⟨fun s => rfl, _, by decide, _, _, .inr fun _ _ _ _ _ => rfl, rfl⟩
  all_goals exact ⟨fun s => rfl, _, by decide, _, _, .inl rfl, rfl⟩

/-- A scalar form with the primitive is one call, and which one. -/
theorem evexScalarForms_call : ∀ e ∈ evexScalarForms, ∀ (ev : Evex) (dst src1 : VReg) (src2 : Src),
    (∀ s, exec (e.1 ev dst src1 src2) s = call (e.1 ev dst src1 src2).desc e.2.1 (binaryLanes e.2.1 e.2.2) s) ∧
    ∃ op ∈ arithOps, ∃ dbl, (e.1 ev dst src1 src2).desc = .nonLegacy op true dbl .v128 ev dst src1 src2 0 := by
  simp only [evexScalarForms, List.forall_mem_cons]
  refine ⟨?_, ?_, ?_, ?_, ?_, ?_, ?_, ?_, ?_, ?_, ?_, ?_, ?_, ?_, nofun⟩ <;> intro ev dst src1 src2 <;>
    exact ⟨fun s => rfl, _, by decide, _, rfl⟩

open Laws.WellFormedLegal in
/-- A packed form with its operands has a legal descriptor (R45). -/
theorem evexPackedForms_legal : ∀ e ∈ evexPackedForms, ∀ (vl : VLen) (ev : Evex) (dst src1 : VReg) (src2 : Src),
    Statement (e.1 vl ev dst src1 src2) := by
  simp only [evexPackedForms, List.forall_mem_cons]
  exact ⟨vaddps, vaddpd, vsubps, vsubpd, vmulps, vmulpd, vdivps, vdivpd, vminps, vminpd, vmaxps, vmaxpd,
    fun vl ev dst _ => vsqrtps vl ev dst, fun vl ev dst _ => vsqrtpd vl ev dst, nofun⟩

open Laws.WellFormedLegal in
/-- A scalar form with its operands has a legal descriptor (R45). -/
theorem evexScalarForms_legal : ∀ e ∈ evexScalarForms, ∀ (ev : Evex) (dst src1 : VReg) (src2 : Src),
    Statement (e.1 ev dst src1 src2) := by
  simp only [evexScalarForms, List.forall_mem_cons]
  exact ⟨vaddss, vaddsd, vsubss, vsubsd, vmulss, vmulsd, vdivss, vdivsd, vminss, vminsd, vmaxss, vmaxsd, vsqrtss, vsqrtsd, nofun⟩

/-! ### The result -/

/-- What a packed non-legacy call writes fits the machine's registers (R7, R88). -/
theorem fitsWidth_blockCall_packed {p : Params} {d : Desc} {vl : VLen} (hsc : d.scalar = false) (hnl : d.nl = true)
    (hvl : d.vl = vl.code) (hl : p.hasLength vl = true) (f : Fmt) (op : LaneOp f) (ci : CallIn) :
    fitsWidth p (blockCall p d f op ci).r = true := by
  simp only [blockCall, writeBack, hsc, hnl]
  exact fitsWidth_writeBackPacked f hvl hl _ _

/-- What a scalar non-legacy call writes fits the machine's registers: it is zero above bit 127 (R7, R92). -/
theorem fitsWidth_blockCall_scalar {d : Desc} (hsc : d.scalar = true) (hnl : d.nl = true) (p : Params) (f : Fmt) (op : LaneOp f)
    (ci : CallIn) : fitsWidth p (blockCall p d f op ci).r = true := by
  simp [blockCall, writeBack, hsc, hnl, writeBackScalar, fitsWidth]

/-- A packed form with its operands commits its result and its report, whatever the masks (R211, R212). -/
theorem evexPacked_committed {e : (VLen → Evex → VReg → VReg → Src → Instr) × Fmt × Primitive} (he : e ∈ evexPackedForms)
    {s : State} {vl : VLen} {ev : Evex} {dst src1 : VReg} {src2 : Src} (hw : (e.1 vl ev dst src1 src2).wellFormed = true)
    (hf : (e.1 vl ev dst src1 src2).fits s.cfg = true) :
    ∃ (R : VecWord) (fl : FlagSet),
      exec (e.1 vl ev dst src1 src2) s = .next (s.committed dst R fl) ∧
        NonLegacyPacked e.2.1
          (fun i => e.2.2 s.cfg e.2.1 (s.evexStatus ev) (lane e.2.1 (s.readX src1) i) (lane e.2.1 (s.operandB src2) i))
          s (s.evexStatus ev).suppress vl ev dst R fl := by
  have hlegal := evexPackedForms_legal e he vl ev dst src1 src2 s.cfg hw hf
  obtain ⟨hexec, op, hop, dbl, a, ha, hdesc⟩ := evexPackedForms_call e he vl ev dst src1 src2
  rw [hexec, ← ha.binaryLanes_eq]
  rw [hdesc] at hlegal ⊢
  obtain ⟨-, hlen, -⟩ := nonLegacy_of_legal hlegal
  refine ⟨_, _, (call_of_legal hlegal).trans (congrArg _ (commit_of_we rfl rfl ?_)), ?_⟩
  · exact fitsWidth_blockCall_packed rfl rfl rfl hlen _ _ _
  · exact packed_nonLegacy s _ (build_nonLegacy s (arith_not_round op hop) _ _ _ _ _ _ _ _) (arith_statusAffecting hop rfl)
      rfl rfl rfl rfl rfl rfl src2 rfl rfl

/-- A scalar form with its operands commits its result and its report, whatever the masks (R211, R212). -/
theorem evexScalar_committed {e : (Evex → VReg → VReg → Src → Instr) × Fmt × Primitive} (he : e ∈ evexScalarForms)
    {s : State} {ev : Evex} {dst src1 : VReg} {src2 : Src} (hw : (e.1 ev dst src1 src2).wellFormed = true)
    (hf : (e.1 ev dst src1 src2).fits s.cfg = true) :
    ∃ (R : VecWord) (fl : FlagSet),
      exec (e.1 ev dst src1 src2) s = .next (s.committed dst R fl) ∧
        NonLegacyScalar e.2.1
          (e.2.2 s.cfg e.2.1 (s.evexStatus ev) (lane e.2.1 (s.readX src1) 0) (lane e.2.1 (s.operandB src2) 0))
          s (s.evexStatus ev).suppress ev dst src1 R fl := by
  have hlegal := evexScalarForms_legal e he ev dst src1 src2 s.cfg hw hf
  obtain ⟨hexec, op, hop, dbl, hdesc⟩ := evexScalarForms_call e he ev dst src1 src2
  rw [hexec]
  rw [hdesc] at hlegal ⊢
  refine ⟨_, _, (call_of_legal hlegal).trans (congrArg _ (commit_of_we rfl rfl ?_)), ?_⟩
  · exact fitsWidth_blockCall_scalar rfl rfl _ _ _ _
  · exact scalar_nonLegacy s _ (build_nonLegacy s (arith_not_round op hop) _ _ _ _ _ _ _ _) (arith_statusAffecting hop rfl)
      rfl rfl rfl rfl rfl src2 rfl rfl

/-- Settles O16: with every exception masked what a packed form commits is written. -/
theorem evexPackedResult : Obligations.EvexPackedResult := by
  intro e he s vl ev dst src1 src2 _ hmasked hw hf
  obtain ⟨R, fl, hexec, hresult⟩ := evexPacked_committed he hw hf
  rw [committed_of_allMasked hmasked] at hexec
  exact ⟨R, fl, hexec, hresult⟩

/-- Settles O17: with every exception masked what a scalar form commits is written. -/
theorem evexScalarResult : Obligations.EvexScalarResult := by
  intro e he s ev dst src1 src2 _ hmasked hw hf
  obtain ⟨R, fl, hexec, hresult⟩ := evexScalar_committed he hw hf
  rw [committed_of_allMasked hmasked] at hexec
  exact ⟨R, fl, hexec, hresult⟩

/-! ### The memory operand of a scalar form -/

/-- A scalar call computes lane 0 alone (R90): values of operand B that give that lane the same result give the same call. -/
theorem blockCall_scalar_congr {p : Params} {d : Desc} {f : Fmt} {op : LaneOp f} (hsc : d.scalar = true) {b b' : VecWord}
    (h0 : ∀ st a, op p st a b' 0 = op p st a b 0) (ci : CallIn) :
    blockCall p d f op { ci with b := b' } = blockCall p d f op { ci with b := b } := by
  have hn : computedLanes f d = 1 := by simp only [computedLanes, hsc, if_true]
  unfold blockCall
  cases hnl : d.nl <;>
    simp only [hn, orFlags, writeBack, hsc, hnl, writeBackScalar, writeBackLegacyScalar, h0, CallIn.enabled] <;> rfl

/-- A call with a memory operand samples the value the core supplies with it (R14). -/
theorem sample_of_mem {d : Desc} (hmem : d.mem = true) (s : State) (w : BitVec 64) (m : VecWord) (rest : List CoreInput) :
    State.sample { s with inputs := .call w m :: rest } d = { s.sample d with b := m } := by
  simp only [State.sample, hmem, if_true]
  rfl

/-- What a commit writes to the vector registers and MXCSR does not depend on what the core sends (R211). -/
theorem commit_of_inputs (d : Desc) (o : CallOut) (s : State) (l l' : List CoreInput) :
    (commit d o { s with inputs := l' }).x = (commit d o { s with inputs := l }).x ∧
      (commit d o { s with inputs := l' }).mxcsr = (commit d o { s with inputs := l }).mxcsr := by
  by_cases h : unmasked s.mxcsr o.flags = 0
  · rw [commit_of_masked (s := { s with inputs := l }) h, commit_of_masked (s := { s with inputs := l' }) h]
    cases o.we <;> exact ⟨rfl, rfl⟩
  · rw [commit_of_unmasked (s := { s with inputs := l }) h, commit_of_unmasked (s := { s with inputs := l' }) h]
    exact ⟨rfl, rfl⟩

/-- Settles O33: the two calls sample the same but for operand B, whose lane 0 alone a scalar call reads. -/
theorem scalarReadsLaneZeroOfMemory : Obligations.ScalarReadsLaneZeroOfMemory := by
  intro e he s w w' m m' rest ev dst src1 t t' hlane ht ht'
  obtain ⟨hexec, op, -, dbl, hdesc⟩ := evexScalarForms_call e he ev dst src1 .mem
  rw [hexec, hdesc] at ht ht'
  obtain ⟨-, rfl⟩ := call_eq_next.1 ht
  obtain ⟨-, rfl⟩ := call_eq_next.1 ht'
  have h0 (st : Status) (a : VecWord) :
      binaryLanes e.2.1 e.2.2 s.cfg st a m' 0 = binaryLanes e.2.1 e.2.2 s.cfg st a m 0 :=
    congrArg (e.2.2 s.cfg e.2.1 st (lane e.2.1 a 0)) hlane.symm
  rw [sample_of_mem rfl, sample_of_mem rfl, blockCall_scalar_congr rfl h0]
  exact commit_of_inputs _ _ s _ _

end Sys2Proof.Machine

/-!
PROOF. The decoder and the encoder are inverse to each other (spec/30_encoding.md R38, R45, R46): the operands that the decoder
reads from the fields of a form, then the fields that a legal descriptor fixes.
-/

namespace Sys2Proof

open Machine (test_eq_false_of_legal wellFormed_of_legal)

/-! ### The decoder on a word -/

theorem decode_eq_error {p : Params} {w : BitVec 64} {r : RefuseReason} (h : refuseReason p (unpack w) = some r) :
    decode p w = .error r := by
  simp only [decode, h]

theorem decode_eq_ok {p : Params} {w : BitVec 64} {i : Instr} (hlegal : refuseReason p (unpack w) = none)
    (hi : (unpack w).instr = some i) : decode p w = .ok i := by
  simp only [decode, hlegal, hi]

/-- A word that decodes is legal, and its row is in the table. -/
theorem legal_of_decode {p : Params} {w : BitVec 64} {i : Instr} (h : decode p w = .ok i) :
    refuseReason p (unpack w) = none ∧ (unpack w).instr = some i := by
  unfold decode at h
  split at h
  next => cases h
  next hlegal =>
    split at h
    next j hj =>
      cases h
      exact ⟨hlegal, hj⟩
    next => cases h

/-! ### Each field, read from what encodes it -/

@[simp] theorem VLen.ofBits_code (vl : VLen) : VLen.ofBits vl.code = vl := by cases vl <;> rfl

@[simp] theorem Desc.src_legacy (op : Op) (scalar dbl : Bool) (dst : VReg) (src : Src) (imm : BitVec 8) :
    (Desc.legacy op scalar dbl dst src imm).src = src := by
  cases src <;> rfl

@[simp] theorem Desc.src_nonLegacy (op : Op) (scalar dbl : Bool) (vl : VLen) (ev : Evex) (dst src1 : VReg) (src2 : Src)
    (imm : BitVec 8) : (Desc.nonLegacy op scalar dbl vl ev dst src1 src2 imm).src = src2 := by
  cases src2 <;> rfl

@[simp] theorem Desc.evex_nonLegacy (op : Op) (scalar dbl : Bool) (vl : VLen) (ev : Evex) (dst src1 : VReg) (src2 : Src)
    (imm : BitVec 8) : (Desc.nonLegacy op scalar dbl vl ev dst src1 src2 imm).evex = ev := by
  obtain ⟨rc, sae, kz, ksel⟩ := ev
  cases rc with
  | none => rfl
  | some m => cases m <;> rfl

@[simp] theorem Desc.length_nonLegacy (op : Op) (scalar dbl : Bool) (vl : VLen) (ev : Evex) (dst src1 : VReg) (src2 : Src)
    (imm : BitVec 8) : VLen.ofBits (Desc.nonLegacy op scalar dbl vl ev dst src1 src2 imm).vl = vl := VLen.ofBits_code vl

/-! ### Decoding what the encoder gives -/

/-- The table's row of an instruction's own descriptor is that instruction, its operands read back (R38). -/
theorem instr_desc (i : Instr) : i.desc.instr = some i := by
  cases i
  all_goals
    refine Eq.trans (b := some _) rfl ?_
    simp only [Instr.desc, Desc.src_legacy, Desc.src_nonLegacy, Desc.evex_nonLegacy, Desc.length_nonLegacy]
    rfl

open Laws.WellFormedLegal in
/-- A well-formed instruction has a legal descriptor on every machine with its length and its registers (R45). -/
theorem legal_of_wellFormed (i : Instr) : Statement i :=
  i.casesOn
    addps addpd addss addsd vaddps vaddpd vaddss vaddsd subps subpd subss subsd vsubps vsubpd vsubss vsubsd mulps mulpd
    mulss mulsd vmulps vmulpd vmulss vmulsd divps divpd divss divsd vdivps vdivpd vdivss vdivsd minps minpd minss minsd
    vminps vminpd vminss vminsd maxps maxpd maxss maxsd vmaxps vmaxpd vmaxss vmaxsd sqrtps sqrtpd sqrtss sqrtsd vsqrtps
    vsqrtpd vsqrtss vsqrtsd vscalefps vscalefpd vscalefss vscalefsd roundps roundpd roundss roundsd vroundps vroundpd
    vroundss vroundsd haddps haddpd vhaddps vhaddpd hsubps hsubpd vhsubps vhsubpd addsubps addsubpd vaddsubps vaddsubpd
    cmpps cmppd cmpss cmpsd vcmpps vcmppd vcmpss vcmpsd dpps vdpps rcpps rcpss vrcpps vrcpss rsqrtps rsqrtss vrsqrtps
    vrsqrtss vtestps vtestpd

/-- Settles O2: the word of an instruction has the instruction's fields, which are legal and in its row of the table. -/
theorem decodeOfEncode : Obligations.DecodeOfEncode := by
  intro p i hw hf
  have hfields : unpack (encode i) = i.desc := unpack_pack i.desc
  refine decode_eq_ok ?_ ?_
  · rw [hfields]
    exact legal_of_wellFormed i p hw hf
  · rw [hfields]
    exact instr_desc i

/-- Settles O1: each word is the encoding of its instruction, whose operands every machine has. -/
theorem workedEncodings : Obligations.WorkedEncodings := by
  intro p
  have hadd : encode (.vaddps .v256 .plain 0 1 (.reg 2)) = 0x0000000041000500 := by decide
  have hcmp : encode (.cmpps 3 (.reg 4) 1) = 0x000001008318000C := by decide
  refine ⟨hadd ▸ decodeOfEncode p _ rfl ?_, hadd, hcmp ▸ decodeOfEncode p _ rfl ?_, hcmp⟩ <;> rfl

/-! ### Encoding what the decoder gives -/

/-- The fields that the encoder gives the instruction of a descriptor: those its row reads are the descriptor's, the others are as
R45 asks. -/
def Desc.canonical (d : Desc) (op : Op) : Desc :=
  let imm := if [Op.round, .cmp, .dp].any (· == op) then d.imm8 else 0
  if d.nl then
    .nonLegacy op d.scalar d.dbl (if d.scalar then .v128 else VLen.ofBits d.vl)
      (if arithOps.any (· == op) then d.evex else .plain) (if [Op.test].any (· == op) then d.src1 else d.dst)
      (if unaryOps.any (· == op) && !d.scalar then 0 else d.src1) d.src imm
  else .legacy op d.scalar d.dbl d.dst d.src imm

theorem Op.code_of_ofCode {c : BitVec 6} {op : Op} (h : Op.ofCode c = some op) : c = op.code := by
  refine BitVec.eq_of_toNat_eq ?_
  unfold Op.ofCode at h
  split at h <;> cases h <;> assumption

/-- Row by row of the table, the instruction of a descriptor is encoded from the fields the row reads. -/
theorem desc_of_instr {d : Desc} {i : Instr} (h : d.instr = some i) : ∃ op, d.op = op.code ∧ i.desc = d.canonical op := by
  cases hop : Op.ofCode d.op with
  | none => simp [Desc.instr, hop] at h
  | some op =>
    have hcode : d.op = op.code := Op.code_of_ofCode hop
    refine ⟨op, hcode, ?_⟩
    obtain ⟨o, scalar, dbl, vl, nl, rcv, rcm, sae, kz, ksel, dst, src1, src2, mem, rsv39, imm8, rsv63⟩ := d
    obtain rfl : o = op.code := hcode
    cases op <;> cases nl <;> cases scalar <;> cases dbl <;> cases h <;> rfl

/-! ### The fields that a legal descriptor fixes -/

section Legal

variable {p : Params} {d : Desc}

/-- A legal descriptor of a form without EVEX features has none of the EVEX fields set (NO_EVEX_FEATURE, RCM_WITHOUT_RCV). -/
theorem noEvex_of_legal (h : refuseReason p d = none) (hform : (!d.nl || !d.opIn arithOps) = true) :
    d.rcv = false ∧ d.rcm = 0 ∧ d.sae = false ∧ d.kz = false ∧ d.ksel = 0 := by
  have hfeature : ((d.rcv || d.sae || d.kz || d.ksel != 0) && (!d.nl || !d.opIn arithOps)) = false :=
    test_eq_false_of_legal h .noEvexFeature (by simp [legalChecks])
  have hmode : (!d.rcv && d.rcm != 0) = false := test_eq_false_of_legal h .rcmWithoutRcv (by simp [legalChecks])
  rw [hform, Bool.and_true] at hfeature
  simp only [Bool.or_eq_false_iff, bne_eq_false_iff_eq] at hfeature
  obtain ⟨⟨⟨hrcv, hsae⟩, hkz⟩, hksel⟩ := hfeature
  rw [hrcv] at hmode
  exact ⟨hrcv, by simpa using hmode, hsae, hkz, hksel⟩

/-- Operand B of a legal descriptor has the descriptor's SRC2 field: 0 for a memory operand (MEM_SRC2). -/
theorem src_index_of_legal (h : refuseReason p d = none) : d.src.index = d.src2 := by
  have hmem : (d.mem && d.src2 != 0) = false := test_eq_false_of_legal h .memSrc2 (by simp [legalChecks])
  unfold Desc.src
  cases hm : d.mem with
  | false => rfl
  | true =>
    rw [hm, Bool.true_and, bne_eq_false_iff_eq] at hmem
    exact hmem.symm

theorem src_isMem (d : Desc) : d.src.isMem = d.mem := by
  unfold Desc.src
  cases d.mem <;> rfl

/-- The length class of a legal descriptor has the descriptor's VL field (RESERVED_VL). -/
theorem length_code_of_legal (h : refuseReason p d = none) : (VLen.ofBits d.vl).code = d.vl := by
  have hvl : (d.vl == 3) = false := test_eq_false_of_legal h .reservedVl (by simp [legalChecks])
  have hcode : ∀ v : BitVec 2, (v == 3) = false → (VLen.ofBits v).code = v := by decide
  exact hcode d.vl hvl

/-- The override of a legal descriptor has the descriptor's RCM field: 0 without an override (RCM_WITHOUT_RCV). -/
theorem evex_rcm_of_legal (h : refuseReason p d = none) : d.evex.rcm = d.rcm := by
  have hmode : (!d.rcv && d.rcm != 0) = false := test_eq_false_of_legal h .rcmWithoutRcv (by simp [legalChecks])
  have hbits : ∀ b : BitVec 2, (RoundMode.ofBits b).bits = b := by decide
  unfold Desc.evex Evex.rcm
  cases hr : d.rcv with
  | false =>
    rw [hr, Bool.not_false, Bool.true_and, bne_eq_false_iff_eq] at hmode
    exact hmode.symm
  | true => exact hbits d.rcm

theorem evex_rcv (d : Desc) : d.evex.rcv = d.rcv := by
  unfold Desc.evex Evex.rcv
  cases d.rcv <;> rfl

/-- The reserved bits of a legal descriptor are 0 (RESERVED_BITS). -/
theorem reserved_of_legal (h : refuseReason p d = none) : d.rsv39 = 0 ∧ d.rsv63 = 0 := by
  have hrsv : (d.rsv63 != 0 || d.rsv39 != 0) = false := test_eq_false_of_legal h .reservedBits (by simp [legalChecks])
  simp only [Bool.or_eq_false_iff, bne_eq_false_iff_eq] at hrsv
  exact hrsv.symm

/-- A legal legacy descriptor is the one with its operation, its destination, operand B and the immediate (R45). -/
theorem eq_legacy_of_legal (h : refuseReason p d = none) {op : Op} (hop : d.op = op.code) (hnl : d.nl = false) :
    Desc.legacy op d.scalar d.dbl d.dst d.src d.imm8 = d := by
  have hvl : (!d.nl && d.vl != 0) = false := test_eq_false_of_legal h .legacyVl (by simp [legalChecks])
  have hsrc1 : (!d.nl && d.src1 != d.dst) = false := test_eq_false_of_legal h .legacySrc1 (by simp [legalChecks])
  rw [hnl, Bool.not_false, Bool.true_and, bne_eq_false_iff_eq] at hvl hsrc1
  obtain ⟨hrcv, hrcm, hsae, hkz, hksel⟩ := noEvex_of_legal h (by rw [hnl]; rfl)
  obtain ⟨h39, h63⟩ := reserved_of_legal h
  have hidx := src_index_of_legal h
  have hmem := src_isMem d
  obtain ⟨o, scalar, dbl, vl, nl, rcv, rcm, sae, kz, ksel, dst, src1, src2, mem, rsv39, imm8, rsv63⟩ := d
  rw [Desc.legacy, Desc.mk.injEq]
  exact ⟨hop.symm, rfl, rfl, hvl.symm, hnl.symm, hrcv.symm, hrcm.symm, hsae.symm, hkz.symm, hksel.symm, rfl, hsrc1.symm, hidx,
    hmem, h39.symm, rfl, h63.symm⟩

/-- A legal non-legacy descriptor is the one with its operation, its length, its EVEX fields, its operands and the immediate. -/
theorem eq_nonLegacy_of_legal (h : refuseReason p d = none) {op : Op} (hop : d.op = op.code) (hnl : d.nl = true) :
    Desc.nonLegacy op d.scalar d.dbl (VLen.ofBits d.vl) d.evex d.dst d.src1 d.src d.imm8 = d := by
  obtain ⟨h39, h63⟩ := reserved_of_legal h
  have hidx := src_index_of_legal h
  have hmem := src_isMem d
  have hvl := length_code_of_legal h
  have hrcm := evex_rcm_of_legal h
  have hrcv := evex_rcv d
  obtain ⟨o, scalar, dbl, vl, nl, rcv, rcm, sae, kz, ksel, dst, src1, src2, mem, rsv39, imm8, rsv63⟩ := d
  rw [Desc.nonLegacy, Desc.mk.injEq]
  exact ⟨hop.symm, rfl, rfl, hvl, hnl.symm, hrcv, hrcm, rfl, rfl, rfl, rfl, rfl, hidx, hmem, h39.symm, rfl, h63.symm⟩

/-- A field that a failed test of R45 leaves at one value only, under its condition. -/
theorem ite_right_of_test {α : Type} [DecidableEq α] {c : Bool} {x z : α} (h : (c && x != z) = false) :
    (if c then z else x) = x := by
  cases c with
  | false => rfl
  | true => exact (bne_eq_false_iff_eq.1 h).symm

theorem ite_left_of_test {α : Type} [DecidableEq α] {c : Bool} {x z : α} (h : (!c && x != z) = false) :
    (if c then x else z) = x := by
  cases c with
  | false => exact (bne_eq_false_iff_eq.1 h).symm
  | true => rfl

/-- The fields of a legal descriptor that its row does not read are those the encoder gives (SCALAR_VL, UNARY_SRC1, IMM_UNUSED,
TEST_DST). -/
theorem canonical_of_legal (h : refuseReason p d = none) {op : Op} (hop : d.op = op.code) : d.canonical op = d := by
  have himm : (!d.opIn [.round, .cmp, .dp] && d.imm8 != 0) = false :=
    test_eq_false_of_legal h .immUnused (by simp [legalChecks])
  have hscalar : (d.scalar && d.vl != 0) = false := test_eq_false_of_legal h .scalarVl (by simp [legalChecks])
  have hunary : (d.opIn unaryOps && !d.scalar && d.nl && d.src1 != 0) = false :=
    test_eq_false_of_legal h .unarySrc1 (by simp [legalChecks])
  have htest : (d.opIn [.test] && d.dst != d.src1) = false := test_eq_false_of_legal h .testDst (by simp [legalChecks])
  have hevex := noEvex_of_legal h
  simp only [opIn_of_code hop] at himm hunary htest hevex
  unfold Desc.canonical
  rw [ite_left_of_test himm]
  cases hnl : d.nl with
  | false => exact eq_legacy_of_legal h hop hnl
  | true =>
    rw [hnl, Bool.and_true] at hunary
    have hvl : (if d.scalar then VLen.v128 else VLen.ofBits d.vl) = VLen.ofBits d.vl :=
      (apply_ite VLen.ofBits _ 0 d.vl).symm.trans (congrArg VLen.ofBits (ite_right_of_test hscalar))
    have hev : (if arithOps.any (· == op) then d.evex else .plain) = d.evex := by
      split
      next => rfl
      next hno =>
        obtain ⟨hrcv, -, hsae, hkz, hksel⟩ := hevex (by rw [Bool.eq_false_of_not_eq_true hno]; exact Bool.or_true _)
        simp only [Desc.evex, Evex.plain, hrcv, hsae, hkz, hksel, Bool.false_eq_true, if_false]
    simp only [if_true, hvl, hev, ite_right_of_test htest, ite_right_of_test hunary]
    exact eq_nonLegacy_of_legal h hop hnl

end Legal

/-- Settles O3: a word that decodes is legal, so the fields its row reads and those R45 fixes are all of them. -/
theorem encodeOfDecode : Obligations.EncodeOfDecode := by
  intro p w i hi
  obtain ⟨hlegal, hrow⟩ := legal_of_decode hi
  obtain ⟨op, hop, hdesc⟩ := desc_of_instr hrow
  rw [canonical_of_legal hlegal hop] at hdesc
  refine ⟨?_, wellFormed_of_legal (hdesc ▸ hlegal)⟩
  calc encode i = pack (unpack w) := congrArg pack hdesc
    _ = w := pack_unpack w

end Sys2Proof


/-!
PROOF. The legality tests of a descriptor in their order, each on the bits of the word (spec/30_encoding.md R45): what a test of the
list decides, what each test says of the numbers its fields hold, and that a legal descriptor has its row in the table.
-/

namespace Sys2Proof

open Machine (test_eq_false_of_legal)

/-! ### The order of the tests -/

/-- The first test of those left decides the refusal and its reason, or it leaves the rest of them. -/
theorem refuse_or_rest {p : Params} {w : BitVec 64} {b : Bool} {r : RefuseReason} {l : List (Bool × RefuseReason)} {P Q : Prop}
    [Decidable P] (h : refuseReason p (unpack w) = firstReason ((b, r) :: l)) (hP : b = true ↔ P)
    (hrest : ¬P → refuseReason p (unpack w) = firstReason l → Q) : if P then decode p w = .error r else Q := by
  split
  next hp =>
    rw [hP.2 hp] at h
    exact decode_eq_error h
  next hp =>
    rw [Bool.eq_false_of_not_eq_true (mt hP.1 hp)] at h
    exact hrest hp h

/-! ### The tests on numbers -/

theorem or_test {a b : Bool} {A B : Prop} (ha : a = true ↔ A) (hb : b = true ↔ B) : (a || b) = true ↔ A ∨ B :=
  Bool.or_eq_true_iff.trans (or_congr ha hb)

theorem and_test {a b : Bool} {A B : Prop} (ha : a = true ↔ A) (hb : b = true ↔ B) : (a && b) = true ↔ A ∧ B :=
  Bool.and_eq_true_iff.trans (and_congr ha hb)

theorem not_test {a : Bool} {A : Prop} (ha : a = true ↔ A) : (!a) = true ↔ ¬A := by
  rw [Bool.not_eq_true', ← Bool.not_eq_true, ha]

theorem bne_zero_iff {n : Nat} (x : BitVec n) : (x != 0) = true ↔ x.toNat ≠ 0 := by
  simp [← BitVec.toNat_inj]

theorem bne_iff_toNat {n : Nat} (x y : BitVec n) : (x != y) = true ↔ x.toNat ≠ y.toNat := by
  simp [← BitVec.toNat_inj]

theorem beq_iff_toNat {n : Nat} (x y : BitVec n) : (x == y) = true ↔ x.toNat = y.toNat := by
  simp [← BitVec.toNat_inj]

/-- The OP field selects one of some operations when its number is that of one of them (R39). -/
theorem opIn_iff (d : Desc) (ops : List Op) : d.opIn ops = true ↔ d.op.toNat ∈ ops.map fun o => o.code.toNat := by
  simp [Desc.opIn, ← BitVec.toNat_inj]

/-- The operations of ARITH have the numbers below 8 (R39, R45). -/
theorem opIn_arith_iff (d : Desc) : d.opIn arithOps = true ↔ d.op.toNat < 8 := by
  have hnumbers : (arithOps.map fun o => o.code.toNat) = List.range 8 := by decide
  rw [opIn_iff, hnumbers, List.mem_range]

theorem low_iff (r : VReg) : VReg.low r = true ↔ r.toNat < 16 := decide_eq_true_iff

theorem not_low_iff (r : VReg) : (!VReg.low r) = true ↔ 16 ≤ r.toNat := (not_test (low_iff r)).trans not_lt

/-- NVREG as a number (R7). -/
def RegCount.count : RegCount → Nat
  | .n16 => 16
  | .n32 => 32

theorem hasReg_iff (p : Params) (r : VReg) : p.hasReg r = true ↔ r.toNat < p.nvreg.count := by
  unfold Params.hasReg
  have := r.isLt
  cases p.nvreg <;> simp [low_iff, RegCount.count]
  omega

/-- Some register field is not below a bound when the greatest of the three is not. -/
theorem anyReg_iff (d : Desc) {f : VReg → Bool} {n : Nat} (hf : ∀ r, f r = true ↔ r.toNat < n) :
    d.anyReg (fun r => !f r) = true ↔ n ≤ max d.dst.toNat (max d.src1.toNat d.src2.toNat) := by
  have hnot (r : VReg) : (!f r) = true ↔ n ≤ r.toNat := (not_test (hf r)).trans not_lt
  simp only [Desc.anyReg, Bool.or_eq_true, hnot, le_max_iff, or_assoc]

/-- The length of a VL field other than the reserved one is beyond MAXVL when it is 512 bits and MAXVL is 256 (R8). -/
theorem exceeds_iff (p : Params) (vl : BitVec 2) (h3 : vl.toNat ≠ 3) :
    (vl == 2 && p.maxvl == .w256) = true ↔ p.maxvl.bits < 128 * 2 ^ vl.toNat := by
  revert vl
  cases p.maxvl <;> decide

/-! ### The row of a legal descriptor -/

/-- An OP field that is not reserved is the number of an operation (R39). -/
theorem Op.exists_code {c : BitVec 6} (h : ¬16 < c.toNat) : ∃ op : Op, c = op.code := by
  have hsome : ∀ c : BitVec 6, ¬16 < c.toNat → (Op.ofCode c).isSome = true := by decide
  obtain ⟨op, hop⟩ := Option.isSome_iff_exists.1 (hsome c h)
  exact ⟨op, Op.code_of_ofCode hop⟩

/-- The table has the rows of an operation but for the forms that R45 excludes (NO_LEGACY_FORM, NO_SCALAR_FORM, NO_DOUBLE_FORM). -/
theorem instr_isSome {d : Desc} {op : Op} (hop : d.op = op.code) :
    d.instr.isSome =
      (!(!d.nl && [Op.scalef, .test].any (· == op)) && !(d.scalar && [Op.hadd, .hsub, .addsub, .dp, .test].any (· == op)) &&
        !(d.dbl && [Op.dp, .rcp, .rsqrt].any (· == op))) := by
  obtain ⟨o, scalar, dbl, vl, nl, rcv, rcm, sae, kz, ksel, dst, src1, src2, mem, rsv39, imm8, rsv63⟩ := d
  obtain rfl : o = op.code := hop
  cases op <;> cases nl <;> cases scalar <;> cases dbl <;> rfl

/-- A legal descriptor has its row in the table. -/
theorem exists_instr_of_legal {p : Params} {d : Desc} (h : refuseReason p d = none) : ∃ i, d.instr = some i := by
  have hreserved : decide (16 < d.op.toNat) = false := test_eq_false_of_legal h .reservedOp (by simp [legalChecks])
  have hlegacy : (!d.nl && d.opIn [.scalef, .test]) = false := test_eq_false_of_legal h .noLegacyForm (by simp [legalChecks])
  have hscalar : (d.scalar && d.opIn [.hadd, .hsub, .addsub, .dp, .test]) = false :=
    test_eq_false_of_legal h .noScalarForm (by simp [legalChecks])
  have hdouble : (d.dbl && d.opIn [.dp, .rcp, .rsqrt]) = false := test_eq_false_of_legal h .noDoubleForm (by simp [legalChecks])
  obtain ⟨op, hop⟩ := Op.exists_code (of_decide_eq_false hreserved)
  rw [opIn_of_code hop] at hlegacy hscalar hdouble
  refine Option.isSome_iff_exists.1 ?_
  rw [instr_isSome hop, hlegacy, hscalar, hdouble]
  rfl

/-! ### The statement -/

/-- Settles O4: test after test in R45's order, each on the numbers its fields hold. -/
theorem legalDescriptors : Obligations.LegalDescriptors := by
  intro p w
  have harith := opIn_arith_iff (unpack w)
  have hin := opIn_iff (unpack w)
  have hclear (b : Bool) : (!b) = true ↔ b = false := iff_of_eq (Bool.not_eq_true' b)
  -- RESERVED_BITS to REG_RANGE_VEX: the fields of every form
  refine refuse_or_rest rfl (or_test (bne_zero_iff _) (bne_zero_iff _)) fun _ h => ?_
  refine refuse_or_rest h decide_eq_true_iff fun _ h => ?_
  refine refuse_or_rest h (beq_iff_toNat _ 3) fun hvl h => ?_
  refine refuse_or_rest h (exceeds_iff p _ hvl) fun _ h => ?_
  refine refuse_or_rest h (anyReg_iff _ (hasReg_iff p)) fun _ h => ?_
  refine refuse_or_rest h (and_test (not_test harith) (anyReg_iff _ low_iff)) fun _ h => ?_
  -- MEM_SRC2 to NO_LEGACY_FORM
  refine refuse_or_rest h (and_test Iff.rfl (bne_zero_iff _)) fun _ h => ?_
  refine refuse_or_rest h (and_test (hclear _) (bne_zero_iff _)) fun _ h => ?_
  refine refuse_or_rest h (and_test (hclear _) (bne_iff_toNat _ _)) fun _ h => ?_
  refine refuse_or_rest h (and_test (hclear _) (or_test (not_low_iff _) (not_low_iff _) |>.trans le_max_iff.symm)) fun _ h => ?_
  refine refuse_or_rest h (and_test (hclear _) (hin _)) fun _ h => ?_
  -- SCALAR_VL to NO_512_FORM
  refine refuse_or_rest h (and_test Iff.rfl (bne_zero_iff _)) fun _ h => ?_
  refine refuse_or_rest h (and_test Iff.rfl (hin _)) fun _ h => ?_
  refine refuse_or_rest h (and_test Iff.rfl (hin _)) fun _ h => ?_
  refine refuse_or_rest h (and_test (beq_iff_toNat _ 2) (not_test harith)) fun _ h => ?_
  -- NO_EVEX_FEATURE to ZEROING_WITHOUT_MASK
  refine refuse_or_rest h
    (and_test (or_test (or_test (or_test Iff.rfl Iff.rfl) Iff.rfl) (bne_zero_iff _) |>.trans (or_assoc.trans or_assoc))
      (or_test (hclear _) (not_test harith))) fun _ h => ?_
  refine refuse_or_rest h (and_test Iff.rfl (hin _)) fun _ h => ?_
  refine refuse_or_rest h (and_test (hclear _) (bne_zero_iff _)) fun _ h => ?_
  refine refuse_or_rest h (and_test Iff.rfl (beq_iff_toNat _ 0)) fun _ h => ?_
  -- UNARY_SRC1, IMM_UNUSED, TEST_DST
  refine refuse_or_rest h
    (and_test (and_test (and_test (hin _) (hclear _)) Iff.rfl) (bne_zero_iff _) |>.trans (and_assoc.trans and_assoc)) fun _ h => ?_
  refine refuse_or_rest h (and_test (not_test (hin _)) (bne_zero_iff _)) fun _ h => ?_
  refine refuse_or_rest h (and_test ((hin _).trans List.mem_singleton) (bne_iff_toNat _ _)) fun _ h => ?_
  obtain ⟨i, hi⟩ := exists_instr_of_legal h
  exact ⟨i, decode_eq_ok h hi⟩

end Sys2Proof


/-!
PROOF. What a call of each form commits, whatever the masks (spec/60_exceptions.md R211, R212), and with it the VEX compares
(spec/41_compare.md R81 to R84) and ROUND (spec/45_round_horizontal.md R164, R168 to R175).
-/

namespace Sys2Proof.Machine

/-! ### What a call of each form commits -/

/-- The call answers the commit of a result and a report as `spec` says, which with every exception masked is that of a call that
completed (R211). -/
def Commits (run : State → Host.Outcome State Fault Refusal) (s : State) (dst : VReg) (spec : VecWord → FlagSet → Prop) : Prop :=
  ∃ (R : VecWord) (fl : FlagSet),
    run s = .next (s.committed dst R fl) ∧ (s.AllMasked → run s = .next (s.written dst R fl)) ∧ spec R fl

/-- A legal call commits what the block computes, if a register of the machine holds it. -/
theorem commits_of_legal {d : Desc} {f : Fmt} {op : LaneOp f} {s : State} (hlegal : refuseReason s.cfg d = none)
    (hfits : fitsWidth s.cfg (blockCall s.cfg d f op (s.sample d)).r = true) {spec : VecWord → FlagSet → Prop}
    (hspec : spec (blockCall s.cfg d f op (s.sample d)).r (blockCall s.cfg d f op (s.sample d)).flags) :
    Commits (call d f op) s d.dst spec := by
  have hcommit : call d f op s = .next (s.committed d.dst (blockCall s.cfg d f op (s.sample d)).r
      (blockCall s.cfg d f op (s.sample d)).flags) :=
    (call_of_legal hlegal).trans (congrArg _ (commit_of_we rfl rfl hfits))
  refine ⟨_, _, hcommit, fun hmasked => ?_, hspec⟩
  rw [hcommit, committed_of_allMasked hmasked]

/-- What a legacy call writes fits the machine's registers when what the destination holds does: it replaces bits 127:0 alone (R7,
R89, R91). -/
theorem fitsWidth_blockCall_legacy {p : Params} {d : Desc} (hnl : d.nl = false) (f : Fmt) (op : LaneOp f) {ci : CallIn}
    (hold : fitsWidth p ci.dold = true) : fitsWidth p (blockCall p d f op ci).r = true := by
  cases hsc : d.scalar <;> simp only [blockCall, writeBack, hsc, hnl] <;> exact hold

/-- The registers of an invariant state hold MAXVL bits (R7, R19). -/
theorem State.Wf.fitsWidth_readX {s : State} (h : s.Wf) (r : VReg) : fitsWidth s.cfg (s.readX r) = true := by
  obtain ⟨hregs, -, -⟩ := h
  exact (hregs r).1

section Forms

variable {s : State} {op : Op} {dbl : Bool} {vl : VLen} {ev : Evex} {dst src1 : VReg} {src : Src} {imm : BitVec 8} {st : Status}

theorem legacyPacked_commits (hwf : s.Wf) (hlegal : refuseReason s.cfg (.legacy op false dbl dst src imm) = none)
    (hst : build s.mxcsr (.legacy op false dbl dst src imm) = st)
    (hrep : statusAffecting (.legacy op false dbl dst src imm) = true) (f : Fmt) (lanes : LaneOp f) :
    Commits (call (.legacy op false dbl dst src imm) f lanes) s dst
      (LegacyPacked f (lanes s.cfg st (s.readX dst) (s.operandB src)) s st.suppress dst) :=
  commits_of_legal hlegal (fitsWidth_blockCall_legacy rfl f lanes (hwf.fitsWidth_readX dst))
    (packed_legacy s lanes hst hrep rfl rfl rfl rfl rfl src rfl rfl rfl)

theorem legacyScalar_commits (hwf : s.Wf) (hlegal : refuseReason s.cfg (.legacy op true dbl dst src imm) = none)
    (hst : build s.mxcsr (.legacy op true dbl dst src imm) = st)
    (hrep : statusAffecting (.legacy op true dbl dst src imm) = true) (f : Fmt) (lanes : LaneOp f) :
    Commits (call (.legacy op true dbl dst src imm) f lanes) s dst
      (LegacyScalar f (lanes s.cfg st (s.readX dst) (s.operandB src) 0) s st.suppress dst) :=
  commits_of_legal hlegal (fitsWidth_blockCall_legacy rfl f lanes (hwf.fitsWidth_readX dst))
    (scalar_legacy s lanes hst hrep rfl rfl rfl rfl src rfl rfl rfl)

theorem nonLegacyPacked_commits (hlegal : refuseReason s.cfg (.nonLegacy op false dbl vl ev dst src1 src imm) = none)
    (hst : build s.mxcsr (.nonLegacy op false dbl vl ev dst src1 src imm) = st)
    (hrep : statusAffecting (.nonLegacy op false dbl vl ev dst src1 src imm) = true) (f : Fmt) (lanes : LaneOp f) :
    Commits (call (.nonLegacy op false dbl vl ev dst src1 src imm) f lanes) s dst
      (NonLegacyPacked f (lanes s.cfg st (s.readX src1) (s.operandB src)) s st.suppress vl ev dst) := by
  obtain ⟨-, hlen, -⟩ := nonLegacy_of_legal hlegal
  exact commits_of_legal hlegal (fitsWidth_blockCall_packed rfl rfl rfl hlen f lanes _)
    (packed_nonLegacy s lanes hst hrep rfl rfl rfl rfl rfl rfl src rfl rfl)

theorem nonLegacyScalar_commits (hlegal : refuseReason s.cfg (.nonLegacy op true dbl .v128 ev dst src1 src imm) = none)
    (hst : build s.mxcsr (.nonLegacy op true dbl .v128 ev dst src1 src imm) = st)
    (hrep : statusAffecting (.nonLegacy op true dbl .v128 ev dst src1 src imm) = true) (f : Fmt) (lanes : LaneOp f) :
    Commits (call (.nonLegacy op true dbl .v128 ev dst src1 src imm) f lanes) s dst
      (NonLegacyScalar f (lanes s.cfg st (s.readX src1) (s.operandB src) 0) s st.suppress ev dst src1) :=
  commits_of_legal hlegal (fitsWidth_blockCall_scalar rfl rfl _ f lanes _)
    (scalar_nonLegacy s lanes hst hrep rfl rfl rfl rfl rfl src rfl rfl)

/-- A packed VEX form that is not 512 bits long exists, but for the double forms that R45 excludes. -/
theorem nonLegacyShape_vexPacked (hdbl : (dbl && [Op.dp, .rcp, .rsqrt].any (· == op)) = false) (hvl : vl ≠ .v512) :
    nonLegacyShape op false dbl vl .plain = true := by
  have hvex : vl.vex = true := bne_iff_ne.2 hvl
  have hrcv : Evex.plain.rcv = false := rfl
  have hmask : Evex.plain.maskOk = true := rfl
  simp only [nonLegacyShape, hdbl, hvex, hrcv, hmask, beq_self_eq_true, Bool.false_and, Bool.and_false, Bool.not_false,
    Bool.or_true, Bool.and_self]

/-- A VEX form of the first sixteen registers that is not 512 bits long is legal on every machine (R45). -/
theorem legal_vex (p : Params) {scalar : Bool} (hs : nonLegacyShape op scalar dbl vl .plain = true)
    (hi : imm = 0 ∨ [Op.round, .cmp, .dp].any (· == op) = true) (hvl : vl ≠ .v512) (hd : VReg.low dst = true)
    (ha : VReg.low src1 = true) (hb : src.low = true) (hu : unaryOps.any (· == op) = false ∨ scalar = true ∨ src1 = 0)
    (ht : [Op.test].any (· == op) = false ∨ dst = src1) :
    refuseReason p (.nonLegacy op scalar dbl vl .plain dst src1 src imm) = none := by
  have hlen : p.hasLength vl = true := by
    unfold Params.hasLength
    rw [bne_iff_ne.2 hvl, Bool.true_or]
  have hsrc : p.hasSrc src = true := by
    rw [← hasReg_index_eq, hasReg_of_low (Src.low_index hb)]
  exact legal_nonLegacy p hs hi hlen (hasReg_of_low hd) (hasReg_of_low ha) hsrc (.inr ⟨hd, ha, hb⟩) hu ht

end Forms

/-! ### The VEX compares -/

/-- The predicate code of a VEX compare is the immediate's low five bits, as a number (R74). -/
theorem vexCode_eq (imm : BitVec 8) : vexCode imm = BitVec.ofNat 5 (imm.toNat % 32) := by
  refine BitVec.eq_of_toNat_eq ?_
  simp [vexCode, BitVec.extractLsb'_toNat]

theorem vexComparePacked_commits {s : State} {dbl : Bool} {vl : VLen} {dst src1 : VReg} {src2 : Src} {imm : BitVec 8} (f : Fmt)
    (hvl : vl ≠ .v512) (hd : VReg.low dst = true) (ha : VReg.low src1 = true) (hb : src2.low = true) :
    Commits (call (.nonLegacy .cmp false dbl vl .plain dst src1 src2 imm) f (binaryLanes f (cmpW (vexCode imm)))) s dst
      (NonLegacyPacked f
        (fun i => cmpW (BitVec.ofNat 5 (imm.toNat % 32)) s.cfg f s.plainStatus (lane f (s.readX src1) i)
          (lane f (s.operandB src2) i))
        s 0 vl .plain dst) := by
  have hshape : nonLegacyShape .cmp false dbl vl .plain = true := nonLegacyShape_vexPacked (Bool.and_false dbl) hvl
  rw [← vexCode_eq]
  exact nonLegacyPacked_commits (legal_vex s.cfg hshape (.inr rfl) hvl hd ha hb (.inl rfl) (.inl rfl))
    (build_nonLegacy s rfl false dbl vl .plain dst src1 src2 imm) rfl f (binaryLanes f (cmpW (vexCode imm)))

theorem vexCompareScalar_commits {s : State} {dbl : Bool} {dst src1 : VReg} {src2 : Src} {imm : BitVec 8} (f : Fmt)
    (hd : VReg.low dst = true) (ha : VReg.low src1 = true) (hb : src2.low = true) :
    Commits (call (.nonLegacy .cmp true dbl .v128 .plain dst src1 src2 imm) f (binaryLanes f (cmpW (vexCode imm)))) s dst
      (NonLegacyScalar f
        (cmpW (BitVec.ofNat 5 (imm.toNat % 32)) s.cfg f s.plainStatus (lane f (s.readX src1) 0) (lane f (s.operandB src2) 0))
        s 0 .plain dst src1) := by
  have hshape : nonLegacyShape .cmp true dbl .v128 .plain = true := by cases dbl <;> rfl
  rw [← vexCode_eq]
  exact nonLegacyScalar_commits (legal_vex s.cfg hshape (.inr rfl) nofun hd ha hb (.inl rfl) (.inl rfl))
    (build_nonLegacy s rfl true dbl .v128 .plain dst src1 src2 imm) rfl f (binaryLanes f (cmpW (vexCode imm)))

/-- Settles O19: each compare is the call of its form, in its format. -/
theorem vexCompareResult : Obligations.VexCompareResult := by
  simp only [Obligations.VexCompareResult, List.forall_mem_cons]
  refine ⟨⟨?_, ?_, nofun⟩, ?_, ?_, nofun⟩
  · exact fun s vl dst src1 src2 imm _ hvl hd ha hb => vexComparePacked_commits .f32 hvl hd ha hb
  · exact fun s vl dst src1 src2 imm _ hvl hd ha hb => vexComparePacked_commits .f64 hvl hd ha hb
  · exact fun s dst src1 src2 imm _ hd ha hb => vexCompareScalar_commits .f32 hd ha hb
  · exact fun s dst src1 src2 imm _ hd ha hb => vexCompareScalar_commits .f64 hd ha hb

/-! ### ROUND -/

section Round

variable {s : State} {dbl : Bool} {vl : VLen} {dst src1 : VReg} {src : Src} {imm : BitVec 8} (f : Fmt)

theorem roundLegacyPacked_commits (hwf : s.Wf) (hd : VReg.low dst = true) (hb : src.low = true) :
    Commits (call (.legacy .round false dbl dst src imm) f (unaryLanes f roundW)) s dst
      (LegacyPacked f (fun i => roundW s.cfg f (s.roundStatus imm) (lane f (s.operandB src) i)) s (s.roundStatus imm).suppress
        dst) := by
  have hshape : legacyShape .round false dbl = true := by cases dbl <;> rfl
  exact legacyPacked_commits hwf (legal_legacy s.cfg hshape (.inr rfl) hd hb) (build_legacy_round s false dbl dst src imm) rfl f
    (unaryLanes f roundW)

theorem roundLegacyScalar_commits (hwf : s.Wf) (hd : VReg.low dst = true) (hb : src.low = true) :
    Commits (call (.legacy .round true dbl dst src imm) f (unaryLanes f roundW)) s dst
      (LegacyScalar f (roundW s.cfg f (s.roundStatus imm) (lane f (s.operandB src) 0)) s (s.roundStatus imm).suppress dst) := by
  have hshape : legacyShape .round true dbl = true := by cases dbl <;> rfl
  exact legacyScalar_commits hwf (legal_legacy s.cfg hshape (.inr rfl) hd hb) (build_legacy_round s true dbl dst src imm) rfl f
    (unaryLanes f roundW)

theorem roundVexPacked_commits (hvl : vl ≠ .v512) (hd : VReg.low dst = true) (hb : src.low = true) :
    Commits (call (.nonLegacy .round false dbl vl .plain dst 0 src imm) f (unaryLanes f roundW)) s dst
      (NonLegacyPacked f (fun i => roundW s.cfg f (s.roundStatus imm) (lane f (s.operandB src) i)) s
        (s.roundStatus imm).suppress vl .plain dst) := by
  have hshape : nonLegacyShape .round false dbl vl .plain = true := nonLegacyShape_vexPacked (Bool.and_false dbl) hvl
  exact nonLegacyPacked_commits (legal_vex s.cfg hshape (.inr rfl) hvl hd rfl hb (.inr (.inr rfl)) (.inl rfl))
    (build_nonLegacy_round s false dbl vl dst 0 src imm) rfl f (unaryLanes f roundW)

theorem roundVexScalar_commits (hd : VReg.low dst = true) (ha : VReg.low src1 = true) (hb : src.low = true) :
    Commits (call (.nonLegacy .round true dbl .v128 .plain dst src1 src imm) f (unaryLanes f roundW)) s dst
      (NonLegacyScalar f (roundW s.cfg f (s.roundStatus imm) (lane f (s.operandB src) 0)) s (s.roundStatus imm).suppress .plain
        dst src1) := by
  have hshape : nonLegacyShape .round true dbl .v128 .plain = true := by cases dbl <;> rfl
  exact nonLegacyScalar_commits (legal_vex s.cfg hshape (.inr rfl) nofun hd ha hb (.inr (.inl rfl)) (.inl rfl))
    (build_nonLegacy_round s true dbl .v128 dst src1 src imm) rfl f (unaryLanes f roundW)

end Round

/-- Settles O20: each ROUND is the call of its form, in its format. -/
theorem roundResult : Obligations.RoundResult := by
  simp only [Obligations.RoundResult, List.forall_mem_cons]
  refine ⟨⟨?_, ?_, nofun⟩, ⟨?_, ?_, nofun⟩, ⟨?_, ?_, nofun⟩, ?_, ?_, nofun⟩
  · exact fun s dst src imm hwf hd hb => roundLegacyPacked_commits .f32 hwf hd hb
  · exact fun s dst src imm hwf hd hb => roundLegacyPacked_commits .f64 hwf hd hb
  · exact fun s dst src imm hwf hd hb => roundLegacyScalar_commits .f32 hwf hd hb
  · exact fun s dst src imm hwf hd hb => roundLegacyScalar_commits .f64 hwf hd hb
  · exact fun s vl dst src imm _ hvl hd hb => roundVexPacked_commits .f32 hvl hd hb
  · exact fun s vl dst src imm _ hvl hd hb => roundVexPacked_commits .f64 hvl hd hb
  · exact fun s dst src1 src2 imm _ hd ha hb => roundVexScalar_commits .f32 hd ha hb
  · exact fun s dst src1 src2 imm _ hd ha hb => roundVexScalar_commits .f64 hd ha hb

end Sys2Proof.Machine

/-!
PROOF. The legacy forms, SCALEF, the forms that work on sub-blocks and the approximations (spec/43_elementwise.md to
spec/47_approx.md): each is one call of its own descriptor, which commits the result and the report of its shape.
-/

namespace Sys2Proof.Machine

/-! ### The legacy forms of one primitive a lane -/

/-- The predicate code of a legacy compare is the immediate's low three bits, as a number (R74). -/
theorem legacyCode_eq (imm : BitVec 8) : legacyCode imm = BitVec.ofNat 5 (imm.toNat % 8) := by
  refine BitVec.eq_of_toNat_eq ?_
  simp only [legacyCode, BitVec.toNat_setWidth, BitVec.extractLsb'_toNat, BitVec.toNat_ofNat]
  omega

/-- The fields of a call that every legacy form of one primitive a lane has: its operation exists in a legacy form, is not ROUND,
builds a status context, and takes the immediate it is given (R45, R53, R54). -/
def IsLegacyCall (op : Op) (scalar dbl : Bool) (imm : BitVec 8) : Prop :=
  legacyShape op scalar dbl = true ∧ (imm = 0 ∨ [Op.round, .cmp, .dp].any (· == op) = true) ∧
    [Op.round].any (· == op) = false ∧ [Op.rcp, .rsqrt, .test].any (· == op) = false

/-- A packed legacy form is one call with its primitive in every lane. -/
theorem legacyPackedForms_call (imm : BitVec 8) : ∀ e ∈ legacyPackedForms imm, ∀ (dst : VReg) (src : Src),
    ∃ op dbl imm', IsLegacyCall op false dbl imm' ∧
      exec (e.1 dst src) = call (.legacy op false dbl dst src imm') e.2.1 (binaryLanes e.2.1 e.2.2) := by
  simp only [legacyPackedForms, List.forall_mem_cons, ← legacyCode_eq]
  refine ⟨?_, ?_, ?_, ?_, ?_, ?_, ?_, ?_, ?_, ?_, ?_, ?_, ?_, ?_, ?_, ?_, nofun⟩ <;> intro dst src
  case refine_15 | refine_16 => exact ⟨.cmp, _, imm, ⟨rfl, .inr rfl, rfl, rfl⟩, rfl⟩
  all_goals exact ⟨_, _, 0, ⟨rfl, .inl rfl, rfl, rfl⟩, rfl⟩

/-- A scalar legacy form likewise. -/
theorem legacyScalarForms_call (imm : BitVec 8) : ∀ e ∈ legacyScalarForms imm, ∀ (dst : VReg) (src : Src),
    ∃ op dbl imm', IsLegacyCall op true dbl imm' ∧
      exec (e.1 dst src) = call (.legacy op true dbl dst src imm') e.2.1 (binaryLanes e.2.1 e.2.2) := by
  simp only [legacyScalarForms, List.forall_mem_cons, ← legacyCode_eq]
  refine ⟨?_, ?_, ?_, ?_, ?_, ?_, ?_, ?_, ?_, ?_, ?_, ?_, ?_, ?_, ?_, ?_, nofun⟩ <;> intro dst src
  case refine_15 | refine_16 => exact ⟨.cmp, _, imm, ⟨rfl, .inr rfl, rfl, rfl⟩, rfl⟩
  all_goals exact ⟨_, _, 0, ⟨rfl, .inl rfl, rfl, rfl⟩, rfl⟩

theorem statusAffecting_legacy {op : Op} (h : [Op.rcp, .rsqrt, .test].any (· == op) = false) (scalar dbl : Bool) (dst : VReg)
    (src : Src) (imm : BitVec 8) : statusAffecting (.legacy op scalar dbl dst src imm) = true := by
  rw [statusAffecting, opIn_of_code (op := op) rfl, h, Bool.not_false]

/-- A packed legacy form of low registers commits its result and its report, whatever the masks (R211, R212). -/
theorem legacyPackedForms_commits {imm : BitVec 8} {e : (VReg → Src → Instr) × Fmt × Primitive} (he : e ∈ legacyPackedForms imm)
    {s : State} {dst : VReg} {src : Src} (hwf : s.Wf) (hd : VReg.low dst = true) (hb : src.low = true) :
    Commits (exec (e.1 dst src)) s dst
      (LegacyPacked e.2.1
        (fun i => e.2.2 s.cfg e.2.1 s.plainStatus (lane e.2.1 (s.readX dst) i) (lane e.2.1 (s.operandB src) i)) s 0 dst) := by
  obtain ⟨op, dbl, imm', ⟨hshape, himm, hround, hrep⟩, hexec⟩ := legacyPackedForms_call imm e he dst src
  rw [hexec]
  exact legacyPacked_commits hwf (legal_legacy s.cfg hshape himm hd hb) (build_legacy s hround false dbl dst src imm')
    (statusAffecting_legacy hrep _ _ _ _ _) e.2.1 (binaryLanes e.2.1 e.2.2)

/-- A scalar legacy form likewise. -/
theorem legacyScalarForms_commits {imm : BitVec 8} {e : (VReg → Src → Instr) × Fmt × Primitive} (he : e ∈ legacyScalarForms imm)
    {s : State} {dst : VReg} {src : Src} (hwf : s.Wf) (hd : VReg.low dst = true) (hb : src.low = true) :
    Commits (exec (e.1 dst src)) s dst
      (LegacyScalar e.2.1
        (e.2.2 s.cfg e.2.1 s.plainStatus (lane e.2.1 (s.readX dst) 0) (lane e.2.1 (s.operandB src) 0)) s 0 dst) := by
  obtain ⟨op, dbl, imm', ⟨hshape, himm, hround, hrep⟩, hexec⟩ := legacyScalarForms_call imm e he dst src
  rw [hexec]
  exact legacyScalar_commits hwf (legal_legacy s.cfg hshape himm hd hb) (build_legacy s hround true dbl dst src imm')
    (statusAffecting_legacy hrep _ _ _ _ _) e.2.1 (binaryLanes e.2.1 e.2.2)

/-- Settles O14: with every exception masked what a packed form commits is written. -/
theorem legacyPackedResult : Obligations.LegacyPackedResult := by
  intro imm e he s dst src hwf hmasked hd hb
  obtain ⟨R, fl, -, hwritten, hresult⟩ := legacyPackedForms_commits he hwf hd hb
  exact ⟨R, fl, hwritten hmasked, hresult⟩

/-- Settles O15: with every exception masked what a scalar form commits is written. -/
theorem legacyScalarResult : Obligations.LegacyScalarResult := by
  intro imm e he s dst src hwf hmasked hd hb
  obtain ⟨R, fl, -, hwritten, hresult⟩ := legacyScalarForms_commits he hwf hd hb
  exact ⟨R, fl, hwritten hmasked, hresult⟩

/-! ### The EVEX forms -/

/-- Settles O27: what an EVEX form commits, by cases on its report as `State.committed` has them. -/
theorem evexUnmaskedFlagFaults : Obligations.EvexUnmaskedFlagFaults :=
  ⟨fun _ he _ _ _ _ _ _ _ hw hf => evexPacked_committed he hw hf,
    fun _ he _ _ _ _ _ _ hw hf => evexScalar_committed he hw hf⟩

/-- With every flag suppressed a call reports none (R56). -/
theorem report_of_suppressed {st : Status} (h : st.suppress = 0b111111) : report st = 0 := by
  simp [report, h]

/-- A call that reports no flag leaves MXCSR and the exceptions being handled as they are (R211). -/
theorem commit_of_no_flag {d : Desc} {o : CallOut} {s : State} (h : o.flags = 0) :
    (commit d o s).mxcsr = s.mxcsr ∧ (commit d o s).traps = s.traps := by
  have hmasked : unmasked s.mxcsr o.flags = 0 := by rw [h, unmasked, BitVec.ofNat_eq_ofNat, BitVec.zero_and]
  rw [commit_of_masked hmasked, h]
  cases o.we <;> simp

/-- A non-legacy call with a rounding override or SAE reports no flag (R53, R56). -/
theorem blockCall_flags_of_suppressed {p : Params} {s : State} {op : Op} {scalar dbl : Bool} {vl : VLen} {ev : Evex}
    {dst src1 : VReg} {src2 : Src} {imm : BitVec 8} (hev : ev.rc.isSome = true ∨ ev.sae = true) (hop : op ∈ arithOps) (f : Fmt)
    (lanes : LaneOp f) {ci : CallIn} (hmx : ci.mx = s.mxcsr) :
    (blockCall p (.nonLegacy op scalar dbl vl ev dst src1 src2 imm) f lanes ci).flags = 0 := by
  have hst : build ci.mx (.nonLegacy op scalar dbl vl ev dst src1 src2 imm) = s.evexStatus ev := by
    rw [hmx]
    exact build_nonLegacy s (arith_not_round op hop) _ _ _ _ _ _ _ _
  have hsup : (s.evexStatus ev).suppress = 0b111111 := if_pos (Bool.or_eq_true_iff.2 hev)
  simp only [blockCall, hst]
  rw [if_pos (arith_statusAffecting hop rfl), report_of_suppressed (by exact hsup)]

/-- A call of an EVEX form with a rounding override or SAE leaves MXCSR and the exceptions being handled as they are. -/
theorem call_of_suppressed {s t : State} {op : Op} {scalar dbl : Bool} {vl : VLen} {ev : Evex}
    {dst src1 : VReg} {src2 : Src} {imm : BitVec 8} (hev : ev.rc.isSome = true ∨ ev.sae = true) (hop : op ∈ arithOps) {f : Fmt}
    {lanes : LaneOp f} (h : call (.nonLegacy op scalar dbl vl ev dst src1 src2 imm) f lanes s = .next t) :
    t.mxcsr = s.mxcsr ∧ t.traps = s.traps := by
  obtain ⟨-, rfl⟩ := call_eq_next.1 h
  exact commit_of_no_flag (blockCall_flags_of_suppressed (s := s) hev hop f lanes rfl)

/-- SCALEF is the call on a state whose counter of free values has moved on, which is nothing of MXCSR or the exceptions (R135). -/
theorem callDrawing_of_suppressed {s t : State} {scalar dbl : Bool} {vl : VLen} {ev : Evex} {dst src1 : VReg} {src2 : Src}
    (hev : ev.rc.isSome = true ∨ ev.sae = true) {f : Fmt} {lanes : Nat → LaneOp f}
    (h : callDrawing (.nonLegacy .scalef scalar dbl vl ev dst src1 src2 0) f lanes s = .next t) :
    t.mxcsr = s.mxcsr ∧ t.traps = s.traps := by
  have hop : Op.scalef ∈ arithOps := by decide
  exact call_of_suppressed (s := { s with draws := s.draws + drawsPerCall }) hev hop h

/-- Settles O28: each form is one call of an arithmetic operation with the EVEX fields given. -/
theorem suppressedCallNeverFaults : Obligations.SuppressedCallNeverFaults := by
  constructor
  · intro form hform s t vl ev dst src1 src2 hev h
    obtain hlist | hscalef := List.mem_append.1 hform
    · obtain ⟨e, he, rfl⟩ := List.mem_map.1 hlist
      obtain ⟨hexec, op, hop, dbl, a, -, hdesc⟩ := evexPackedForms_call e he vl ev dst src1 src2
      rw [hexec, hdesc] at h
      exact call_of_suppressed hev hop h
    · obtain rfl | rfl : form = .vscalefps ∨ form = .vscalefpd := by simpa using hscalef
      all_goals exact callDrawing_of_suppressed hev h
  · intro form hform s t ev dst src1 src2 hev h
    obtain hlist | hscalef := List.mem_append.1 hform
    · obtain ⟨e, he, rfl⟩ := List.mem_map.1 hlist
      obtain ⟨hexec, op, hop, dbl, hdesc⟩ := evexScalarForms_call e he ev dst src1 src2
      rw [hexec, hdesc] at h
      exact call_of_suppressed hev hop h
    · obtain rfl | rfl : form = .vscalefss ∨ form = .vscalefsd := by simpa using hscalef
      all_goals exact callDrawing_of_suppressed hev h

/-! ### SCALEF -/

/-- A call that draws free values commits what the call commits on the state with the counter moved on: the same, and that counter
(R135, R211). -/
theorem commits_of_drawing {d : Desc} {f : Fmt} {lanes : Nat → LaneOp f} {s : State} {dst : VReg}
    {spec : VecWord → FlagSet → Prop}
    (h : Commits (call d f (lanes s.draws)) { s with draws := s.draws + drawsPerCall } dst spec) :
    ∃ (R : VecWord) (fl : FlagSet),
      callDrawing d f lanes s = .next { s.committed dst R fl with draws := s.draws + drawsPerCall } ∧
        (s.AllMasked → callDrawing d f lanes s = .next { s.written dst R fl with draws := s.draws + drawsPerCall }) ∧
        spec R fl := by
  obtain ⟨R, fl, hcommit, hwritten, hspec⟩ := h
  refine ⟨R, fl, hcommit.trans (congrArg _ ?_), hwritten, hspec⟩
  have hmasks : State.masks { s with draws := s.draws + drawsPerCall } = s.masks := rfl
  unfold State.committed
  rw [hmasks]
  split <;> rfl

theorem scalefPacked_commits {s : State} {dbl : Bool} {vl : VLen} {ev : Evex} {dst src1 : VReg} {src2 : Src} (f : Fmt)
    (hlegal : refuseReason s.cfg (.nonLegacy .scalef false dbl vl ev dst src1 src2 0) = none) :
    ∃ (R : VecWord) (fl : FlagSet) (n : Nat),
      callDrawing (.nonLegacy .scalef false dbl vl ev dst src1 src2 0) f (scalefLanes f) s =
          .next { s.committed dst R fl with draws := n } ∧
        (s.AllMasked → callDrawing (.nonLegacy .scalef false dbl vl ev dst src1 src2 0) f (scalefLanes f) s =
          .next { s.written dst R fl with draws := n }) ∧
        NonLegacyPacked f
          (fun i => scalefW (Config.freeLane (s.draws + i)) s.cfg f (s.evexStatus ev) (lane f (s.readX src1) i)
            (lane f (s.operandB src2) i))
          s (s.evexStatus ev).suppress vl ev dst R fl ∧
        ∀ i < VLen.lanes f vl, s.draws + i < n := by
  obtain ⟨R, fl, hcommit, hwritten, hspec⟩ := commits_of_drawing (lanes := scalefLanes f)
    (nonLegacyPacked_commits (s := { s with draws := s.draws + drawsPerCall }) hlegal
      (build_nonLegacy _ rfl _ _ _ _ _ _ _ _) rfl f (scalefLanes f s.draws))
  have hlanes := lanes_le_sixteen f vl
  exact ⟨R, fl, _, hcommit, hwritten, hspec, fun i hi => Nat.add_lt_add_left (Nat.lt_of_lt_of_le hi hlanes) _⟩

theorem scalefScalar_commits {s : State} {dbl : Bool} {ev : Evex} {dst src1 : VReg} {src2 : Src} (f : Fmt)
    (hlegal : refuseReason s.cfg (.nonLegacy .scalef true dbl .v128 ev dst src1 src2 0) = none) :
    ∃ (R : VecWord) (fl : FlagSet) (n : Nat),
      callDrawing (.nonLegacy .scalef true dbl .v128 ev dst src1 src2 0) f (scalefLanes f) s =
          .next { s.committed dst R fl with draws := n } ∧
        (s.AllMasked → callDrawing (.nonLegacy .scalef true dbl .v128 ev dst src1 src2 0) f (scalefLanes f) s =
          .next { s.written dst R fl with draws := n }) ∧
        NonLegacyScalar f
          (scalefW (Config.freeLane s.draws) s.cfg f (s.evexStatus ev) (lane f (s.readX src1) 0) (lane f (s.operandB src2) 0))
          s (s.evexStatus ev).suppress ev dst src1 R fl ∧
        s.draws < n := by
  obtain ⟨R, fl, hcommit, hwritten, hspec⟩ := commits_of_drawing (lanes := scalefLanes f)
    (nonLegacyScalar_commits (s := { s with draws := s.draws + drawsPerCall }) hlegal
      (build_nonLegacy _ rfl _ _ _ _ _ _ _ _) rfl f (scalefLanes f s.draws))
  exact ⟨R, fl, _, hcommit, hwritten, hspec, Nat.lt_add_of_pos_right (by decide)⟩

open Laws.WellFormedLegal in
/-- Settles O18: each SCALEF is the call of its form, in its format. -/
theorem scalefResult : Obligations.ScalefResult := by
  simp only [Obligations.ScalefResult, List.forall_mem_cons]
  refine ⟨⟨?_, ?_, nofun⟩, ?_, ?_, nofun⟩
  · exact fun s vl ev dst src1 src2 _ hw hf => scalefPacked_commits .f32 (vscalefps vl ev dst src1 src2 s.cfg hw hf)
  · exact fun s vl ev dst src1 src2 _ hw hf => scalefPacked_commits .f64 (vscalefpd vl ev dst src1 src2 s.cfg hw hf)
  · exact fun s ev dst src1 src2 _ hw hf => scalefScalar_commits .f32 (vscalefss ev dst src1 src2 s.cfg hw hf)
  · exact fun s ev dst src1 src2 _ hw hf => scalefScalar_commits .f64 (vscalefsd ev dst src1 src2 s.cfg hw hf)

/-! ### The forms that work on sub-blocks -/

section SubBlock

variable {s : State} {op : Op} {dbl : Bool} {vl : VLen} {dst src1 : VReg} {src : Src} {imm : BitVec 8}

/-- A packed legacy form, ROUND apart, that exists and builds a status context commits the lanes of its operation (R89). -/
theorem legacyLanes_commits (hwf : s.Wf) (hcall : IsLegacyCall op false dbl imm) (hd : VReg.low dst = true)
    (hb : src.low = true) (f : Fmt) (lanes : LaneOp f) :
    Commits (call (.legacy op false dbl dst src imm) f lanes) s dst
      (LegacyPacked f (lanes s.cfg s.plainStatus (s.readX dst) (s.operandB src)) s 0 dst) := by
  obtain ⟨hshape, himm, hround, hrep⟩ := hcall
  exact legacyPacked_commits hwf (legal_legacy s.cfg hshape himm hd hb) (build_legacy s hround false dbl dst src imm)
    (statusAffecting_legacy hrep _ _ _ _ _) f lanes

/-- The VEX form of the same operation likewise (R88); it is none of the operations of one operand. -/
theorem vexLanes_commits (hcall : IsLegacyCall op false dbl imm) (hunary : unaryOps.any (· == op) = false) (hvl : vl ≠ .v512)
    (hd : VReg.low dst = true) (ha : VReg.low src1 = true) (hb : src.low = true) (f : Fmt) (lanes : LaneOp f) :
    Commits (call (.nonLegacy op false dbl vl .plain dst src1 src imm) f lanes) s dst
      (NonLegacyPacked f (lanes s.cfg s.plainStatus (s.readX src1) (s.operandB src)) s 0 vl .plain dst) := by
  obtain ⟨hshape, himm, hround, hrep⟩ := hcall
  have hdbl : (dbl && [Op.dp, .rcp, .rsqrt].any (· == op)) = false :=
    (iff_of_eq (Bool.not_eq_true' _)).1 (Bool.and_eq_true_iff.1 hshape).2
  have htest : [Op.test].any (· == op) = false := by
    revert hrep
    cases op <;> decide
  have haffects : statusAffecting (.nonLegacy op false dbl vl .plain dst src1 src imm) = true := by
    rw [statusAffecting, opIn_of_code (op := op) rfl, hrep, Bool.not_false]
  exact nonLegacyPacked_commits
    (legal_vex s.cfg (nonLegacyShape_vexPacked hdbl hvl) himm hvl hd ha hb (.inl hunary) (.inl htest))
    (build_nonLegacy s hround false dbl vl .plain dst src1 src imm) haffects f lanes

end SubBlock

/-- The lanes of a primitive on adjacent pairs are those of the rule, sub-block by sub-block (R86, R165, R166). -/
theorem isHorizontal_pairLanes (f : Fmt) (prim : Primitive) (p : Params) (st : Status) (a b : VecWord) :
    IsHorizontal f (prim p f st) a b (pairLanes f prim p st a b) := by
  cases f with
  | f32 =>
    intro j hj
    interval_cases j <;> exact ⟨rfl, rfl, rfl, rfl⟩
  | f64 =>
    intro j hj
    interval_cases j <;> exact ⟨rfl, rfl⟩

/-- A commit with a specification of its lanes, when that of the lanes is stated beside it. -/
theorem Commits.with_lanes {run : State → Host.Outcome State Fault Refusal} {s : State} {dst : VReg} {f : Fmt}
    {spec : (Nat → LaneRes f) → VecWord → FlagSet → Prop} {t : Nat → LaneRes f} {law : (Nat → LaneRes f) → Prop}
    (h : Commits run s dst (spec t)) (ht : law t) :
    ∃ (R : VecWord) (fl : FlagSet) (t : Nat → LaneRes f),
      run s = .next (s.committed dst R fl) ∧ (s.AllMasked → run s = .next (s.written dst R fl)) ∧ law t ∧ spec t R fl := by
  obtain ⟨R, fl, hcommit, hwritten, hspec⟩ := h
  exact ⟨R, fl, t, hcommit, hwritten, ht, hspec⟩

/-- Settles O21: each form is one call of pairs of lanes, which are those of the rule. -/
theorem horizontalResult : Obligations.HorizontalResult := by
  simp only [Obligations.HorizontalResult, List.forall_mem_cons]
  refine ⟨⟨?_, ?_, ?_, ?_, nofun⟩, ?_, ?_, ?_, ?_, nofun⟩
  case refine_1 | refine_2 | refine_3 | refine_4 =>
    intro s dst src hwf hd hb
    exact (legacyLanes_commits hwf ⟨rfl, .inl rfl, rfl, rfl⟩ hd hb _ (pairLanes _ _)).with_lanes
      (isHorizontal_pairLanes _ _ _ _ _ _)
  all_goals
    intro s vl dst src1 src2 _ hvl hd ha hb
    exact (vexLanes_commits ⟨rfl, .inl rfl, rfl, rfl⟩ rfl hvl hd ha hb _ (pairLanes _ _)).with_lanes
      (spec := fun t => NonLegacyPacked _ t s 0 vl .plain dst) (isHorizontal_pairLanes _ _ _ _ _ _)

/-- The lanes of ADDSUB, the choice of the primitive made first (R167). -/
theorem addsubLanes_eq (f : Fmt) (p : Params) (st : Status) (a b : VecWord) :
    addsubLanes f p st a b = fun i => (if i % 2 = 0 then subW else addW) p f st (lane f a i) (lane f b i) := by
  funext i
  unfold addsubLanes
  split <;> rfl

/-- Settles O22: each form is one call of alternating lanes. -/
theorem addSubResult : Obligations.AddSubResult := by
  simp only [Obligations.AddSubResult, List.forall_mem_cons, ← addsubLanes_eq]
  refine ⟨⟨?_, ?_, nofun⟩, ?_, ?_, nofun⟩
  case refine_1 | refine_2 =>
    intro s dst src hwf hd hb
    exact legacyLanes_commits hwf ⟨rfl, .inl rfl, rfl, rfl⟩ hd hb _ (addsubLanes _)
  all_goals
    intro s vl dst src1 src2 _ hvl hd ha hb
    exact vexLanes_commits ⟨rfl, .inl rfl, rfl, rfl⟩ rfl hvl hd ha hb _ (addsubLanes _)

/-- The lanes of the masked reduction are those of the rule written out, lane by lane of each sub-block (R188, R190). -/
theorem dpLanes_eq (imm : BitVec 8) (p : Params) (st : Status) (a b : VecWord) (i : Nat) :
    dpLanes imm p st a b i = dotProduct p st imm a b (i / 4) (i % 4) := by
  have hl : i % 4 < 4 := Nat.mod_lt _ (by decide)
  unfold dpLanes
  generalize i % 4 = l at hl ⊢
  match l, hl with
  | 0, _ | 1, _ | 2, _ | 3, _ => rfl

/-- A packed legacy result depends on the lanes of the lowest sub-block alone (R89). -/
theorem LegacyPacked.congr_lanes {f : Fmt} {t t' : Nat → LaneRes f} {s : State} {sup : FlagSet} {dst : VReg} {R : VecWord}
    {fl : FlagSet} (h : LegacyPacked f t s sup dst R fl) (ht : ∀ i < 128 / f.w, t i = t' i) :
    LegacyPacked f t' s sup dst R fl := by
  obtain ⟨hlanes, h1, h2, h3, hrep⟩ := h
  refine ⟨fun i hi => ?_, h1, h2, h3, reports_congr (fun _ _ => rfl) (fun i hi => ?_) hrep⟩
  · rw [hlanes i hi, ht i hi]
  · rw [ht i hi]

/-- Settles O23: each form is one call of the masked reduction. -/
theorem dotProductResult : Obligations.DotProductResult := by
  constructor
  · intro s dst src imm hwf hd hb
    obtain ⟨R, fl, hcommit, hwritten, hspec⟩ :=
      legacyLanes_commits (op := .dp) (dbl := false) (imm := imm) hwf ⟨rfl, .inr rfl, rfl, rfl⟩ hd hb .f32 (dpLanes imm)
    refine ⟨R, fl, hcommit, hwritten, hspec.congr_lanes fun i (hi : i < 4) => ?_⟩
    rw [dpLanes_eq, Nat.div_eq_of_lt hi, Nat.mod_eq_of_lt hi]
  · intro s vl dst src1 src2 imm _ hvl hd ha hb
    simp only [← dpLanes_eq]
    exact vexLanes_commits (op := .dp) (dbl := false) (imm := imm) ⟨rfl, .inr rfl, rfl, rfl⟩ rfl hvl hd ha hb .f32
      (dpLanes imm)

/-! ### The approximations -/

/-- A function of operand B's lane that sets no flag, whatever the status context (R193). -/
def approxLanes (g : BitVec 32 → BitVec 32) : LaneOp .f32 := fun _ _ _ b i => { val := g (lane .f32 b i), flags := 0 }

theorem rcpLanes_eq : rcpLanes = approxLanes rcpLane := rfl

theorem rsqrtLanes_eq : rsqrtLanes = approxLanes rsqrtLane := rfl

/-- Lanes that set no flag raise none. -/
theorem orFlags_zero (enabled : Nat → Bool) (n : Nat) : orFlags enabled (fun _ => 0) n = 0 := by
  induction n with
  | zero => rfl
  | succ n ih =>
    rw [orFlags, ih, ite_self]
    rfl

/-- A call of lanes that set no flag reports none, status-affecting or not (R54, R56). -/
theorem blockCall_approxLanes_flags (p : Params) (d : Desc) (g : BitVec 32 → BitVec 32) (ci : CallIn) :
    (blockCall p d .f32 (approxLanes g) ci).flags = 0 := by
  have hreport : report { build ci.mx d with flags := orFlags ci.enabled (fun _ => 0) (computedLanes .f32 d) } = 0 := by
    rw [orFlags_zero]
    exact BitVec.zero_and
  exact (congrArg (ite _ · 0) hreport).trans (ite_self 0)

/-- Of lanes that read no status context the call's result does not depend on the operation's code: the laws of the calls that build
one hold of it, as of a call of ADD. -/
theorem blockCall_approxLanes_op (p : Params) (d : Desc) (g : BitVec 32 → BitVec 32) (ci : CallIn) :
    (blockCall p d .f32 (approxLanes g) ci).r = (blockCall p { d with op := Op.add.code } .f32 (approxLanes g) ci).r := by
  obtain ⟨op, scalar, dbl, vl, nl, rcv, rcm, sae, kz, ksel, dst, src1, src2, mem, rsv39, imm8, rsv63⟩ := d
  cases scalar <;> cases nl <;> rfl

/-- A legal call of such lanes writes its result and leaves MXCSR as it is, whatever the masks (R54, R211). -/
theorem approx_written {d : Desc} {s : State} {g : BitVec 32 → BitVec 32} (hlegal : refuseReason s.cfg d = none)
    (hfits : fitsWidth s.cfg (blockCall s.cfg d .f32 (approxLanes g) (s.sample d)).r = true) {spec : VecWord → FlagSet → Prop}
    (hspec : spec (blockCall s.cfg { d with op := Op.add.code } .f32 (approxLanes g) (s.sample d)).r
      (blockCall s.cfg { d with op := Op.add.code } .f32 (approxLanes g) (s.sample d)).flags) :
    ∃ R, call d .f32 (approxLanes g) s = .next (s.written d.dst R 0) ∧ spec R 0 := by
  rw [blockCall_approxLanes_flags, ← blockCall_approxLanes_op] at hspec
  refine ⟨_, ?_, hspec⟩
  have hflags := blockCall_approxLanes_flags s.cfg d g (s.sample d)
  have hmasked : (blockCall s.cfg d .f32 (approxLanes g) (s.sample d)).flags &&& ~~~s.masks = 0 := by
    rw [hflags, BitVec.ofNat_eq_ofNat, BitVec.zero_and]
  rw [call_of_legal hlegal, commit_of_we rfl rfl hfits, if_pos hmasked, hflags]

section Approx

variable {s : State} {op : Op} {vl : VLen} {dst src1 : VReg} {src : Src}

theorem approxLegacyPacked_written (hop : op = .rcp ∨ op = .rsqrt) (hwf : s.Wf) (hd : VReg.low dst = true) (hb : src.low = true)
    (g : BitVec 32 → BitVec 32) :
    ∃ R, call (.legacy op false false dst src 0) .f32 (approxLanes g) s = .next (s.written dst R 0) ∧
      LegacyPacked .f32 (fun i => { val := g (lane .f32 (s.operandB src) i), flags := 0 }) s 0 dst R 0 := by
  have hshape : legacyShape op false false = true := by obtain rfl | rfl := hop <;> rfl
  exact approx_written (legal_legacy s.cfg hshape (.inl rfl) hd hb)
    (fitsWidth_blockCall_legacy rfl .f32 _ (hwf.fitsWidth_readX dst))
    (packed_legacy s (d := .legacy .add false false dst src 0) (approxLanes g) (build_legacy s rfl _ _ _ _ _) rfl rfl rfl rfl rfl
      rfl src rfl rfl rfl)

theorem approxLegacyScalar_written (hop : op = .rcp ∨ op = .rsqrt) (hwf : s.Wf) (hd : VReg.low dst = true) (hb : src.low = true)
    (g : BitVec 32 → BitVec 32) :
    ∃ R, call (.legacy op true false dst src 0) .f32 (approxLanes g) s = .next (s.written dst R 0) ∧
      LegacyScalar .f32 { val := g (lane .f32 (s.operandB src) 0), flags := 0 } s 0 dst R 0 := by
  have hshape : legacyShape op true false = true := by obtain rfl | rfl := hop <;> rfl
  exact approx_written (legal_legacy s.cfg hshape (.inl rfl) hd hb)
    (fitsWidth_blockCall_legacy rfl .f32 _ (hwf.fitsWidth_readX dst))
    (scalar_legacy s (d := .legacy .add true false dst src 0) (approxLanes g) (build_legacy s rfl _ _ _ _ _) rfl rfl rfl rfl
      rfl src rfl rfl rfl)

theorem approxVexPacked_written (hop : op = .rcp ∨ op = .rsqrt) (hvl : vl ≠ .v512) (hd : VReg.low dst = true)
    (hb : src.low = true) (g : BitVec 32 → BitVec 32) :
    ∃ R, call (.nonLegacy op false false vl .plain dst 0 src 0) .f32 (approxLanes g) s = .next (s.written dst R 0) ∧
      NonLegacyPacked .f32 (fun i => { val := g (lane .f32 (s.operandB src) i), flags := 0 }) s 0 vl .plain dst R 0 := by
  have htest : [Op.test].any (· == op) = false := by obtain rfl | rfl := hop <;> rfl
  have hlegal := legal_vex s.cfg (op := op) (nonLegacyShape_vexPacked (Bool.false_and _) hvl) (.inl rfl) hvl hd (src1 := 0) rfl hb
    (.inr (.inr rfl)) (.inl htest)
  obtain ⟨-, hlen, -⟩ := nonLegacy_of_legal hlegal
  exact approx_written hlegal (fitsWidth_blockCall_packed rfl rfl rfl hlen .f32 _ _)
    (packed_nonLegacy s (d := .nonLegacy .add false false vl .plain dst 0 src 0) (approxLanes g)
      (build_nonLegacy s rfl _ _ _ _ _ _ _ _) rfl rfl rfl rfl rfl rfl rfl src rfl rfl)

theorem approxVexScalar_written (hop : op = .rcp ∨ op = .rsqrt) (hd : VReg.low dst = true) (ha : VReg.low src1 = true)
    (hb : src.low = true) (g : BitVec 32 → BitVec 32) :
    ∃ R, call (.nonLegacy op true false .v128 .plain dst src1 src 0) .f32 (approxLanes g) s = .next (s.written dst R 0) ∧
      NonLegacyScalar .f32 { val := g (lane .f32 (s.operandB src) 0), flags := 0 } s 0 .plain dst src1 R 0 := by
  have htest : [Op.test].any (· == op) = false := by obtain rfl | rfl := hop <;> rfl
  have hshape : nonLegacyShape op true false .v128 .plain = true := by obtain rfl | rfl := hop <;> rfl
  exact approx_written
    (legal_vex s.cfg hshape (.inl rfl) nofun hd ha hb (.inr (.inl rfl)) (.inl htest))
    (fitsWidth_blockCall_scalar rfl rfl _ .f32 _ _)
    (scalar_nonLegacy s (d := .nonLegacy .add true false .v128 .plain dst src1 src 0) (approxLanes g)
      (build_nonLegacy s rfl _ _ _ _ _ _ _ _) rfl rfl rfl rfl rfl rfl src rfl rfl)

end Approx

/-- Settles O24: each form is one call of an approximation's lanes. -/
theorem approximationResult : Obligations.ApproximationResult := by
  simp only [Obligations.ApproximationResult, List.forall_mem_cons]
  refine ⟨⟨?_, ?_, nofun⟩, ⟨?_, ?_, nofun⟩, ⟨?_, ?_, nofun⟩, ?_, ?_, nofun⟩
  · exact fun s dst src hwf hd hb => approxLegacyPacked_written (.inl rfl) hwf hd hb rcpLane
  · exact fun s dst src hwf hd hb => approxLegacyPacked_written (.inr rfl) hwf hd hb rsqrtLane
  · exact fun s dst src hwf hd hb => approxLegacyScalar_written (.inl rfl) hwf hd hb rcpLane
  · exact fun s dst src hwf hd hb => approxLegacyScalar_written (.inr rfl) hwf hd hb rsqrtLane
  · exact fun s vl dst src _ hvl hd hb => approxVexPacked_written (.inl rfl) hvl hd hb rcpLane
  · exact fun s vl dst src _ hvl hd hb => approxVexPacked_written (.inr rfl) hvl hd hb rsqrtLane
  · exact fun s dst src1 src2 _ hd ha hb => approxVexScalar_written (.inl rfl) hd ha hb rcpLane
  · exact fun s dst src1 src2 _ hd ha hb => approxVexScalar_written (.inr rfl) hd ha hb rsqrtLane

/-! ### What a packed call depends on -/

theorem orFlags_congr {e : Nat → Bool} {fl fl' : Nat → FlagSet} {n : Nat} (h : ∀ i < n, e i = true → fl i = fl' i) :
    orFlags e fl n = orFlags e fl' n := by
  induction n with
  | zero => rfl
  | succ n ih =>
    simp only [orFlags, ih fun i hi => h i (Nat.lt_succ_of_lt hi)]
    by_cases hn : e n = true
    · rw [h n (Nat.lt_succ_self n) hn]
    · rw [if_neg hn, if_neg hn]

theorem blockOf_congr {f : Fmt} {g g' : Nat → BitVec f.w} (h : ∀ l < f.perBlock, g l = g' l) : blockOf f g = blockOf f g' := by
  cases f with
  | f32 => simp only [blockOf, h 0 (by decide), h 1 (by decide), h 2 (by decide), h 3 (by decide)]
  | f64 => simp only [blockOf, h 0 (by decide), h 1 (by decide)]

/-- A packed write-back reads the results of the enabled active lanes alone (R87, R88). -/
theorem writeBackPacked_congr {f : Fmt} {d : Desc} {ci : CallIn} {t t' : Nat → BitVec f.w}
    (h : ∀ i < subBlocks d.vl * f.perBlock, ci.enabled i = true → t i = t' i) :
    writeBackPacked f d ci t = writeBackPacked f d ci t' := by
  have hlane (i : Nat) (hi : i < subBlocks d.vl * f.perBlock) :
      (if ci.enabled i then t i else if d.kz then 0 else lane f ci.dold i) =
        if ci.enabled i then t' i else if d.kz then 0 else lane f ci.dold i := by
    by_cases he : ci.enabled i = true
    · rw [h i hi he]
    · rw [if_neg he, if_neg he]
  have hblock (j : Nat) (hj : j < subBlocks d.vl) (l : Nat) (hl : l < f.perBlock) :
      j * f.perBlock + l < subBlocks d.vl * f.perBlock :=
    calc j * f.perBlock + l < (j + 1) * f.perBlock := by rw [Nat.add_one_mul]; omega
      _ ≤ subBlocks d.vl * f.perBlock := Nat.mul_le_mul_right _ hj
  simp only [writeBackPacked, VecWord.mk.injEq]
  refine ⟨?_, ?_, ?_, ?_⟩
  all_goals
    refine ite_congr rfl (fun hj => ?_) fun _ => rfl
    exact blockOf_congr fun l hl => hlane _ (hblock _ hj l hl)

/-- A packed non-legacy call reads of its operands the enabled active lanes alone (R55, R87, R88). -/
theorem blockCall_packed_congr {p : Params} {d : Desc} {f : Fmt} {vl : VLen} (hsc : d.scalar = false) (hnl : d.nl = true)
    (hvl : d.vl = vl.code) {op : LaneOp f} {ci : CallIn} {a b : VecWord}
    (h : ∀ i < VLen.lanes f vl, ci.enabled i = true → ∀ st, op p st a b i = op p st ci.a ci.b i) :
    blockCall p d f op { ci with a := a, b := b } = blockCall p d f op ci := by
  have hn : computedLanes f d = VLen.lanes f vl := by simp [computedLanes, hsc, hvl, activeLanes_code]
  have hr : writeBack f d { ci with a := a, b := b } (fun i => (op p (build ci.mx d) a b i).val) =
      writeBack f d ci (fun i => (op p (build ci.mx d) ci.a ci.b i).val) := by
    simp only [writeBack, hsc, hnl]
    refine Eq.trans (b := writeBackPacked f d ci fun i => (op p (build ci.mx d) a b i).val) rfl ?_
    refine writeBackPacked_congr fun i hi he => ?_
    rw [h i (by rw [← subBlocks_code, ← hvl]; exact hi) he]
  have hraised : orFlags ci.enabled (fun i => (op p (build ci.mx d) a b i).flags) (computedLanes f d) =
      orFlags ci.enabled (fun i => (op p (build ci.mx d) ci.a ci.b i).flags) (computedLanes f d) := by
    rw [hn]
    exact orFlags_congr fun i hi he => by rw [h i hi he]
  unfold blockCall
  simp only [hr]
  exact congrArg (fun raised => CallOut.mk _ true
    (if statusAffecting d then report { build ci.mx d with flags := raised } else 0) false false false) hraised

/-- What a commit leaves in the destination and in MXCSR depends on the parameters, on these two and on the call (R211). -/
theorem commit_congr (d : Desc) (o : CallOut) {s s' : State} (hcfg : s'.cfg = s.cfg) (hmx : s'.mxcsr = s.mxcsr)
    (hdst : s'.readX d.dst = s.readX d.dst) :
    (commit d o s').readX d.dst = (commit d o s).readX d.dst ∧ (commit d o s').mxcsr = (commit d o s).mxcsr := by
  by_cases h : unmasked s.mxcsr o.flags = 0
  · rw [commit_of_masked h, commit_of_masked (hmx ▸ h)]
    cases o.we with
    | false => exact ⟨hdst, congrArg (· ||| _) hmx⟩
    | true =>
      refine ⟨?_, congrArg (· ||| _) hmx⟩
      refine ((s'.stick o.flags).readX_writeX_self d.dst o.r).trans (.trans ?_ ((s.stick o.flags).readX_writeX_self d.dst o.r).symm)
      rw [State.stick_cfg, State.stick_cfg, hcfg]
  · rw [commit_of_unmasked h, commit_of_unmasked (hmx ▸ h), hmx, hcfg]
    exact ⟨hdst, congrArg (· ||| _) hmx⟩

/-- Settles O32: the two calls sample the same but for the operands, of which the call reads the enabled lanes alone. -/
theorem disabledLanesDoNotMatter : Obligations.DisabledLanesDoNotMatter := by
  intro e he s s' t t' vl ev dst src1 src2 _ _ hcfg hmx hk hdst hlanes ht ht'
  obtain ⟨hexec, op, hop, dbl, a, ha, hdesc⟩ := evexPackedForms_call e he vl ev dst src1 (.reg src2)
  rw [hexec, hdesc] at ht ht'
  obtain ⟨-, rfl⟩ := call_eq_next.1 ht
  obtain ⟨-, rfl⟩ := call_eq_next.1 ht'
  have hsample : s'.sample (.nonLegacy op false dbl vl ev dst a (.reg src2) 0) =
      { s.sample (.nonLegacy op false dbl vl ev dst a (.reg src2) 0) with a := s'.readX a, b := s'.readX src2 } := by
    simp only [State.sample, State.maskLanes, State.readK, Desc.nonLegacy, Src.index, Src.isMem, hmx, hk, hdst]
    rfl
  rw [hsample, hcfg, blockCall_packed_congr (vl := vl) rfl rfl rfl fun i hi hen st => ?_]
  · exact commit_congr _ _ hcfg hmx hdst
  · have h16 := lanes_le_sixteen e.2.1 vl
    have hen' : s.laneEnabled ev i = true := (enabled_eq_laneEnabled s rfl (by omega)).symm.trans hen
    obtain ⟨ha1, hb1⟩ := hlanes i hi hen'
    have h1 := congrFun (ha.binaryLanes_eq s' st (s'.readX src2)) i
    have h2 := congrFun (ha.binaryLanes_eq s st (s.readX src2)) i
    simp only [ha1, hb1, hcfg] at h1
    exact h1.trans h2.symm

end Sys2Proof.Machine

/-!
PROOF. The fields of a pattern (spec/40_status_context.md R58 to R60): the sign and the pattern below it determine the pattern, and
what a zero of a sign, the inverted sign, quieting and DAZ do to them.
-/

namespace Sys2Proof.Machine

/-! ### The sign and the pattern below it -/

/-- The pattern below the sign, as a number: the exponent field and the fraction. -/
def magBits (f : Fmt) (x : BitVec f.w) : Nat := x.toNat % 2 ^ (f.w - 1)

theorem Fmt.one_lt_p (f : Fmt) : 1 < f.p := by cases f <;> decide

theorem Fmt.ebits_add (f : Fmt) : f.p - 1 + f.ebits = f.w - 1 := by cases f <;> rfl

theorem Fmt.w_pos (f : Fmt) : 0 < f.w := by cases f <;> decide

/-- The pattern below the sign has the exponent field's bits above the fraction's. -/
theorem Fmt.two_pow_signBit (f : Fmt) : 2 ^ (f.w - 1) = (f.expOnes + 1) * 2 ^ (f.p - 1) := by cases f <;> rfl

theorem frac_lt (f : Fmt) (x : BitVec f.w) : frac f x < 2 ^ (f.p - 1) := Nat.mod_lt _ (Nat.two_pow_pos _)

theorem expField_le (f : Fmt) (x : BitVec f.w) : expField f x ≤ f.expOnes :=
  Nat.le_sub_one_of_lt (Nat.mod_lt _ (Nat.two_pow_pos _))

theorem expField_eq (f : Fmt) (x : BitVec f.w) : expField f x = magBits f x / 2 ^ (f.p - 1) := by
  rw [expField, magBits, ← f.ebits_add, Nat.pow_add, Nat.mod_mul_right_div_self]

theorem frac_eq (f : Fmt) (x : BitVec f.w) : frac f x = magBits f x % 2 ^ (f.p - 1) := by
  rw [frac, magBits, ← f.ebits_add, Nat.mod_mod_of_dvd _ (pow_dvd_pow 2 (Nat.le_add_right _ _))]

theorem magBits_eq (f : Fmt) (x : BitVec f.w) : magBits f x = expField f x * 2 ^ (f.p - 1) + frac f x := by
  rw [expField_eq, frac_eq, Nat.div_add_mod']

/-- The fields of a pattern are those of its number below the sign. -/
theorem fields_of_magBits {f : Fmt} {x : BitVec f.w} {e t : Nat} (h : magBits f x = e * 2 ^ (f.p - 1) + t)
    (ht : t < 2 ^ (f.p - 1)) : expField f x = e ∧ frac f x = t := by
  rw [expField_eq, frac_eq, h]
  exact ⟨by rw [Nat.mul_comm, Nat.mul_add_div (Nat.two_pow_pos _), Nat.div_eq_of_lt ht, Nat.add_zero],
    by rw [Nat.mul_comm, Nat.mul_add_mod, Nat.mod_eq_of_lt ht]⟩

/-- Patterns that agree below the sign have the same number there. -/
theorem magBits_congr {f : Fmt} {x y : BitVec f.w} (h : ∀ j < f.w - 1, x.getLsbD j = y.getLsbD j) :
    magBits f x = magBits f y := by
  refine Nat.eq_of_testBit_eq fun j => ?_
  rw [magBits, magBits, Nat.testBit_mod_two_pow, Nat.testBit_mod_two_pow]
  by_cases hj : j < f.w - 1
  · rw [BitVec.testBit_toNat, BitVec.testBit_toNat, h j hj]
  · rw [decide_eq_false hj, Bool.false_and, Bool.false_and]

theorem getLsbD_eq_magBits {f : Fmt} (x : BitVec f.w) {j : Nat} (h : j < f.w - 1) :
    x.getLsbD j = (magBits f x).testBit j := by
  rw [magBits, Nat.testBit_mod_two_pow, decide_eq_true h, Bool.true_and, BitVec.testBit_toNat]

/-- A pattern is its sign and what stands below it. -/
theorem pattern_ext {f : Fmt} {x y : BitVec f.w} (hs : sign f x = sign f y) (hm : magBits f x = magBits f y) : x = y := by
  have hw := f.w_pos
  refine BitVec.eq_of_getLsbD_eq fun j hj => ?_
  obtain hlt | rfl : j < f.w - 1 ∨ j = f.w - 1 := by omega
  · rw [getLsbD_eq_magBits x hlt, getLsbD_eq_magBits y hlt, hm]
  · exact hs

/-! ### A sign with a number below it -/

theorem getLsbD_zeroOf (f : Fmt) (s : Bool) {j : Nat} (hj : j < f.w) :
    (zeroOf f s).getLsbD j = (s && decide (j = f.w - 1)) := by
  cases s with
  | false => simp [zeroOf]
  | true =>
    have h : (zeroOf f true).getLsbD j = (decide (j < f.w) && (2 ^ (f.w - 1)).testBit j) := BitVec.getLsbD_ofNat ..
    rw [h, decide_eq_true hj, Nat.testBit_two_pow, Bool.true_and, Bool.true_and]
    exact decide_eq_decide.2 eq_comm

@[simp] theorem sign_zeroOf_or (f : Fmt) (s : Bool) {m : Nat} (h : m < 2 ^ (f.w - 1)) :
    sign f (zeroOf f s ||| BitVec.ofNat f.w m) = s := by
  have hw := f.w_pos
  rw [sign, BitVec.getLsbD_or, getLsbD_zeroOf f s (by omega), BitVec.getLsbD_ofNat, Nat.testBit_lt_two_pow h, Bool.and_false,
    Bool.or_false, decide_eq_true rfl, Bool.and_true]

@[simp] theorem magBits_zeroOf_or (f : Fmt) (s : Bool) {m : Nat} (h : m < 2 ^ (f.w - 1)) :
    magBits f (zeroOf f s ||| BitVec.ofNat f.w m) = m := by
  have hw := f.w_pos
  have hbits : magBits f (zeroOf f s ||| BitVec.ofNat f.w m) = magBits f (BitVec.ofNat f.w m) := by
    refine magBits_congr fun j hj => ?_
    rw [BitVec.getLsbD_or, getLsbD_zeroOf f s (by omega), decide_eq_false (by omega), Bool.and_false, Bool.false_or]
  rw [hbits, magBits, BitVec.toNat_ofNat, Nat.mod_mod_of_dvd _ (pow_dvd_pow 2 (Nat.sub_le _ _)), Nat.mod_eq_of_lt h]

theorem zeroOf_eq_or (f : Fmt) (s : Bool) : zeroOf f s = zeroOf f s ||| BitVec.ofNat f.w 0 := by simp

@[simp] theorem sign_zeroOf (f : Fmt) (s : Bool) : sign f (zeroOf f s) = s := by
  rw [zeroOf_eq_or, sign_zeroOf_or f s (Nat.two_pow_pos _)]

@[simp] theorem magBits_zeroOf (f : Fmt) (s : Bool) : magBits f (zeroOf f s) = 0 := by
  rw [zeroOf_eq_or, magBits_zeroOf_or f s (Nat.two_pow_pos _)]

@[simp] theorem expField_zeroOf (f : Fmt) (s : Bool) : expField f (zeroOf f s) = 0 := by
  rw [expField_eq, magBits_zeroOf, Nat.zero_div]

@[simp] theorem frac_zeroOf (f : Fmt) (s : Bool) : frac f (zeroOf f s) = 0 := by
  rw [frac_eq, magBits_zeroOf, Nat.zero_mod]

/-! ### The inverted sign -/

@[simp] theorem sign_negate (f : Fmt) (x : BitVec f.w) : sign f (negate f x) = !sign f x := by
  have hw := f.w_pos
  rw [sign, negate, BitVec.getLsbD_xor, getLsbD_zeroOf f true (by omega), decide_eq_true rfl, Bool.true_and, Bool.xor_true, sign]

@[simp] theorem magBits_negate (f : Fmt) (x : BitVec f.w) : magBits f (negate f x) = magBits f x := by
  refine magBits_congr fun j hj => ?_
  rw [negate, BitVec.getLsbD_xor, getLsbD_zeroOf f true (by omega), decide_eq_false (by omega), Bool.and_false, Bool.xor_false]

@[simp] theorem expField_negate (f : Fmt) (x : BitVec f.w) : expField f (negate f x) = expField f x := by
  rw [expField_eq, magBits_negate, ← expField_eq]

@[simp] theorem frac_negate (f : Fmt) (x : BitVec f.w) : frac f (negate f x) = frac f x := by
  rw [frac_eq, magBits_negate, ← frac_eq]

@[simp] theorem isZero_negate (f : Fmt) (x : BitVec f.w) : isZero f (negate f x) = isZero f x := by simp [isZero]

@[simp] theorem isDenormal_negate (f : Fmt) (x : BitVec f.w) : isDenormal f (negate f x) = isDenormal f x := by
  simp [isDenormal]

@[simp] theorem isInf_negate (f : Fmt) (x : BitVec f.w) : isInf f (negate f x) = isInf f x := by simp [isInf]

/-! ### The classes exclude one another -/

theorem Fmt.expOnes_ne_zero (f : Fmt) : f.expOnes ≠ 0 := by cases f <;> decide

theorem isZero_iff {f : Fmt} {x : BitVec f.w} : isZero f x = true ↔ expField f x = 0 ∧ frac f x = 0 := by simp [isZero]

theorem isDenormal_iff {f : Fmt} {x : BitVec f.w} : isDenormal f x = true ↔ expField f x = 0 ∧ frac f x ≠ 0 := by
  simp [isDenormal]

theorem isInf_iff {f : Fmt} {x : BitVec f.w} : isInf f x = true ↔ expField f x = f.expOnes ∧ frac f x = 0 := by simp [isInf]

theorem isNaN_iff {f : Fmt} {x : BitVec f.w} : isNaN f x = true ↔ expField f x = f.expOnes ∧ frac f x ≠ 0 := by simp [isNaN]

theorem isFinite_iff {f : Fmt} {x : BitVec f.w} : isFinite f x = true ↔ expField f x ≠ f.expOnes := by simp [isFinite]

theorem isNaN_of_isInf {f : Fmt} {x : BitVec f.w} (h : isInf f x = true) : isNaN f x = false := by
  obtain ⟨-, ht⟩ := isInf_iff.1 h
  simp [isNaN, ht]

theorem isDenormal_of_isInf {f : Fmt} {x : BitVec f.w} (h : isInf f x = true) : isDenormal f x = false := by
  obtain ⟨-, ht⟩ := isInf_iff.1 h
  simp [isDenormal, ht]

theorem isDenormal_of_isNaN {f : Fmt} {x : BitVec f.w} (h : isNaN f x = true) : isDenormal f x = false := by
  obtain ⟨he, -⟩ := isNaN_iff.1 h
  simp [isDenormal, he, f.expOnes_ne_zero]

theorem isNaN_of_expField_eq_zero {f : Fmt} {x : BitVec f.w} (h : expField f x = 0) : isNaN f x = false := by
  simp [isNaN, h, f.expOnes_ne_zero.symm]

theorem isInf_of_expField_eq_zero {f : Fmt} {x : BitVec f.w} (h : expField f x = 0) : isInf f x = false := by
  simp [isInf, h, f.expOnes_ne_zero.symm]

theorem isDenormal_of_isZero {f : Fmt} {x : BitVec f.w} (h : isZero f x = true) : isDenormal f x = false := by
  obtain ⟨-, ht⟩ := isZero_iff.1 h
  simp [isDenormal, ht]

theorem isNaN_of_isZero {f : Fmt} {x : BitVec f.w} (h : isZero f x = true) : isNaN f x = false :=
  isNaN_of_expField_eq_zero (isZero_iff.1 h).1

theorem isNaN_of_isFinite {f : Fmt} {x : BitVec f.w} (h : isFinite f x = true) : isNaN f x = false := by
  simp [isNaN, isFinite_iff.1 h]

theorem isInf_of_isFinite {f : Fmt} {x : BitVec f.w} (h : isFinite f x = true) : isInf f x = false := by
  simp [isInf, isFinite_iff.1 h]

theorem isSNaN_of_not_isNaN {f : Fmt} {x : BitVec f.w} (h : isNaN f x = false) : isSNaN f x = false := by simp [isSNaN, h]

@[simp] theorem isZero_zeroOf (f : Fmt) (s : Bool) : isZero f (zeroOf f s) = true := by simp [isZero]

@[simp] theorem isDenormal_zeroOf (f : Fmt) (s : Bool) : isDenormal f (zeroOf f s) = false := by simp [isDenormal]

/-! ### Quieting -/

theorem quiet_eq (f : Fmt) (x : BitVec f.w) : quiet f x = x ||| BitVec.ofNat f.w (2 ^ (f.p - 2)) := by cases f <;> rfl

theorem getLsbD_quiet (f : Fmt) (x : BitVec f.w) (j : Nat) : (quiet f x).getLsbD j = (x.getLsbD j || decide (j = f.p - 2)) := by
  have hp : f.p - 2 < f.w := by cases f <;> decide
  rw [quiet_eq, BitVec.getLsbD_or, BitVec.getLsbD_ofNat, Nat.testBit_two_pow]
  by_cases hj : j = f.p - 2
  · rw [decide_eq_true hj, decide_eq_true hj.symm, decide_eq_true (by omega), Bool.and_self]
  · rw [decide_eq_false hj, decide_eq_false (Ne.symm hj), Bool.and_false]

theorem testBit_expField (f : Fmt) (x : BitVec f.w) (j : Nat) :
    (expField f x).testBit j = (decide (j < f.ebits) && x.getLsbD (f.p - 1 + j)) := by
  rw [expField, Nat.testBit_mod_two_pow, Nat.testBit_div_two_pow, BitVec.testBit_toNat, Nat.add_comm]

theorem testBit_frac (f : Fmt) (x : BitVec f.w) (j : Nat) :
    (frac f x).testBit j = (decide (j < f.p - 1) && x.getLsbD j) := by
  rw [frac, Nat.testBit_mod_two_pow, BitVec.testBit_toNat]

theorem expField_quiet (f : Fmt) (x : BitVec f.w) : expField f (quiet f x) = expField f x := by
  have hp := f.one_lt_p
  refine Nat.eq_of_testBit_eq fun j => ?_
  rw [testBit_expField, testBit_expField, getLsbD_quiet, decide_eq_false (by omega : ¬f.p - 1 + j = f.p - 2), Bool.or_false]

theorem qbit_quiet (f : Fmt) (x : BitVec f.w) : qbit f (quiet f x) = true := by
  rw [qbit, getLsbD_quiet, decide_eq_true rfl, Bool.or_true]

/-- A quieted NaN has its qbit, so its fraction is not zero. -/
theorem isQNaN_quiet {f : Fmt} {x : BitVec f.w} (h : isNaN f x = true) : isQNaN f (quiet f x) = true := by
  have hp := f.one_lt_p
  obtain ⟨he, -⟩ := isNaN_iff.1 h
  have hq := qbit_quiet f x
  have ht : frac f (quiet f x) ≠ 0 := by
    intro h0
    have hbit := testBit_frac f (quiet f x) (f.p - 2)
    rw [h0, Nat.zero_testBit, decide_eq_true (by omega), Bool.true_and] at hbit
    exact Bool.false_ne_true (hbit.trans hq)
  rw [isQNaN, isNaN_iff.2 ⟨(expField_quiet f x).trans he, ht⟩, hq, Bool.and_self]

/-- Settles O35: quieting sets the qbit and no other bit. -/
theorem defaultAndQuietNaN : Obligations.DefaultAndQuietNaN := by
  refine ⟨rfl, rfl, fun f x hnan => ⟨isQNaN_quiet hnan, fun j hj => ?_, fun hq => ?_⟩⟩
  · rw [getLsbD_quiet, decide_eq_false hj, Bool.or_false]
  · have hbit : x.getLsbD (f.p - 2) = true := (Bool.and_eq_true_iff.1 hq).2
    refine BitVec.eq_of_getLsbD_eq fun j _ => ?_
    rw [getLsbD_quiet]
    by_cases hj : j = f.p - 2
    · rw [hj, hbit, Bool.true_or]
    · rw [decide_eq_false hj, Bool.or_false]

/-! ### DAZ -/

theorem dazW_of_not_isDenormal {f : Fmt} {st : Status} {x : BitVec f.w} (h : isDenormal f x = false) : dazW f st x = x := by
  simp [dazW, h]

theorem dazW_of_not_daz {f : Fmt} {st : Status} (h : st.daz = false) (x : BitVec f.w) : dazW f st x = x := by simp [dazW, h]

theorem dazW_of_isNaN {f : Fmt} {st : Status} {x : BitVec f.w} (h : isNaN f x = true) : dazW f st x = x :=
  dazW_of_not_isDenormal (isDenormal_of_isNaN h)

theorem dazW_of_isInf {f : Fmt} {st : Status} {x : BitVec f.w} (h : isInf f x = true) : dazW f st x = x :=
  dazW_of_not_isDenormal (isDenormal_of_isInf h)

theorem dazW_of_isZero {f : Fmt} {st : Status} {x : BitVec f.w} (h : isZero f x = true) : dazW f st x = x :=
  dazW_of_not_isDenormal (isDenormal_of_isZero h)

@[simp] theorem isNaN_dazW (f : Fmt) (st : Status) (x : BitVec f.w) : isNaN f (dazW f st x) = isNaN f x := by
  unfold dazW
  split
  · rename_i h
    obtain ⟨-, hd⟩ := Bool.and_eq_true_iff.1 h
    rw [isNaN_of_expField_eq_zero (expField_zeroOf f _), isNaN_of_expField_eq_zero (isDenormal_iff.1 hd).1]
  · rfl

@[simp] theorem isInf_dazW (f : Fmt) (st : Status) (x : BitVec f.w) : isInf f (dazW f st x) = isInf f x := by
  unfold dazW
  split
  · rename_i h
    obtain ⟨-, hd⟩ := Bool.and_eq_true_iff.1 h
    rw [isInf_of_expField_eq_zero (expField_zeroOf f _), isInf_of_expField_eq_zero (isDenormal_iff.1 hd).1]
  · rfl

@[simp] theorem isSNaN_dazW (f : Fmt) (st : Status) (x : BitVec f.w) : isSNaN f (dazW f st x) = isSNaN f x := by
  unfold isSNaN
  rw [isNaN_dazW]
  cases h : isNaN f x with
  | false => rfl
  | true => rw [dazW_of_isNaN h]

@[simp] theorem isQNaN_dazW (f : Fmt) (st : Status) (x : BitVec f.w) : isQNaN f (dazW f st x) = isQNaN f x := by
  unfold isQNaN
  rw [isNaN_dazW]
  cases h : isNaN f x with
  | false => rfl
  | true => rw [dazW_of_isNaN h]

/-- Under DAZ no operand is a denormal (R66). -/
theorem isDenormal_dazW {f : Fmt} {st : Status} (h : st.daz = true) (x : BitVec f.w) : isDenormal f (dazW f st x) = false := by
  unfold dazW
  rw [h, Bool.true_and]
  cases hd : isDenormal f x with
  | false => exact hd
  | true => exact isDenormal_zeroOf f _

/-- Replacing a denormal first changes nothing for DAZ. -/
theorem dazW_idem {f : Fmt} {st : Status} (h : st.daz = true) (x : BitVec f.w) :
    dazW f st (if isDenormal f x then zeroOf f (sign f x) else x) = dazW f st x := by
  have hx : (if isDenormal f x then zeroOf f (sign f x) else x) = dazW f st x := by rw [dazW, h, Bool.true_and]
  rw [hx, dazW_of_not_isDenormal (isDenormal_dazW h x)]

end Sys2Proof.Machine

/-!
PROOF. NaN operands, invalid operations, DAZ and the denormal flag (spec/40_status_context.md R66 to R70): what the branches of each
lane primitive do with the classes of its operands.
-/

namespace Sys2Proof.Machine

/-! ### NaN operands -/

/-- DAZ leaves the NaN operands, so it leaves the NaN result (R66, R68). -/
theorem nan2_dazW {f : Fmt} {a b : BitVec f.w} (st : Status) (h : isNaN f a = true ∨ isNaN f b = true) :
    nan2 f (dazW f st a) (dazW f st b) = nan2 f a b := by
  unfold nan2
  simp only [isNaN_dazW, isSNaN_dazW]
  cases ha : isNaN f a with
  | true => simp only [dazW_of_isNaN ha, if_true]
  | false =>
    have hb : isNaN f b = true := h.resolve_left (ha ▸ Bool.false_ne_true)
    simp only [dazW_of_isNaN hb, Bool.false_eq_true, if_false]

theorem isNaN_or_dazW {f : Fmt} {a b : BitVec f.w} (st : Status) (h : isNaN f a = true ∨ isNaN f b = true) :
    (isNaN f (dazW f st a) || isNaN f (dazW f st b)) = true := by
  rw [isNaN_dazW, isNaN_dazW]
  exact Bool.or_eq_true_iff.2 h

/-- Add, subtract, multiply and divide check for a NaN first (R97 to R100). -/
theorem arith_of_isNaN : ∀ op ∈ ([addW, subW, mulW, divW] : List Primitive), ∀ (p : Params) (f : Fmt) (st : Status)
    (a b : BitVec f.w), isNaN f a = true ∨ isNaN f b = true → op p f st a b = nan2 f a b := by
  simp only [List.forall_mem_cons]
  refine ⟨?_, ?_, ?_, ?_, nofun⟩ <;> intro p f st a b h
  all_goals exact (if_pos (isNaN_or_dazW st h)).trans (nan2_dazW st h)

/-- SCALEF checks for a NaN first too, and draws a free value for a QNaN by an infinity where the parameter says so (R135). -/
theorem scalefW_of_isNaN {d : BitVec 64} {p : Params} {f : Fmt} {st : Status} {a b : BitVec f.w}
    (h : isNaN f a = true ∨ isNaN f b = true) :
    scalefW d p f st a b =
      if isQNaN f a && isInf f b && p.scalefQnanInf == .draw then { val := d.setWidth f.w, flags := 0 } else nan2 f a b := by
  have hnan : scalefW d p f st a b = _ := if_pos (isNaN_or_dazW st h)
  rw [hnan, isQNaN_dazW, isInf_dazW, nan2_dazW st h]

/-- Settles O36: the NaN check is the first, and a QNaN beside an infinity is no SNaN. -/
theorem arithmeticOfNaN : Obligations.ArithmeticOfNaN := by
  refine ⟨fun op hop p f st a b h => ?_, fun d p f st a b h => ?_⟩
  · rw [arith_of_isNaN op hop p f st a b h]
    exact ⟨rfl, rfl⟩
  · rw [scalefW_of_isNaN h]
    by_cases hdraw : isQNaN f a = true ∧ isInf f b = true ∧ p.scalefQnanInf = .draw
    · obtain ⟨hq, hinf, hp⟩ := hdraw
      obtain ⟨-, hqbit⟩ := Bool.and_eq_true_iff.1 hq
      have hsa : isSNaN f a = false := by rw [isSNaN, hqbit, Bool.not_true, Bool.and_false]
      have hsb : isSNaN f b = false := isSNaN_of_not_isNaN (isNaN_of_isInf hinf)
      simp [hq, hinf, hp, hsa, hsb]
    · have hnot : (isQNaN f a && isInf f b && p.scalefQnanInf == .draw) = false := by
        simpa [and_assoc] using hdraw
      rw [hnot, if_neg hdraw]
      exact ⟨rfl, rfl⟩

theorem sqrtW_of_isNaN {p : Params} {f : Fmt} {st : Status} {b : BitVec f.w} (h : isNaN f b = true) :
    sqrtW p f st b = nan1 f b := by
  unfold sqrtW
  simp only [dazW_of_isNaN h, h, if_true]

theorem roundW_of_isNaN {p : Params} {f : Fmt} {st : Status} {b : BitVec f.w} (h : isNaN f b = true) :
    roundW p f st b = nan1 f b := by
  unfold roundW
  simp only [isDenormal_of_isNaN h, Bool.false_and, Bool.false_eq_true, if_false, h, if_true]

/-- Settles O37: the NaN check is the first. -/
theorem unaryOfNaN : Obligations.UnaryOfNaN := by
  simp only [Obligations.UnaryOfNaN, List.forall_mem_cons, unary]
  refine ⟨fun p f st a b h => ?_, fun p f st a b h => ?_, nofun⟩
  · rw [sqrtW_of_isNaN h]
    exact ⟨rfl, rfl⟩
  · rw [roundW_of_isNaN h]
    exact ⟨rfl, rfl⟩

/-! ### Invalid operations -/

/-- Operands that are each an infinity or a zero are what DAZ leaves, are no NaN and are no denormal. -/
def IsInfOrZero (f : Fmt) (x : BitVec f.w) : Prop := isInf f x = true ∨ isZero f x = true

theorem IsInfOrZero.facts {f : Fmt} {x : BitVec f.w} (h : IsInfOrZero f x) (st : Status) :
    dazW f st x = x ∧ isNaN f x = false ∧ isDenormal f x = false := by
  obtain h | h := h
  · exact ⟨dazW_of_isInf h, isNaN_of_isInf h, isDenormal_of_isInf h⟩
  · exact ⟨dazW_of_isZero h, isNaN_of_isZero h, isDenormal_of_isZero h⟩

/-- Settles O38: each is the branch of its primitive for those classes, with no denormal to set DE. -/
theorem invalidOperations : Obligations.InvalidOperations := by
  intro p f st a b
  have hinvalid : invalid f 0 = { val := defaultNaN f, flags := flagIE } := rfl
  refine ⟨fun ha hb hs => ?_, fun ha hb hs => ?_, fun ha hb => ?_, fun ha hb => ?_, fun ha hb => ?_, fun ha hb => ?_,
    fun hnan hz hs hd => ?_, fun d ha hb hs => ?_, fun d ha hb hs => ?_⟩
  case refine_7 =>
    have hdaz : dazW f st b = b := by
      obtain h | h := hd
      · exact dazW_of_not_daz h b
      · exact dazW_of_not_isDenormal h
    simp only [sqrtW, hdaz, hnan, hz, hs, Bool.false_eq_true, if_false, if_true, invalid]
    exact ⟨trivial, BitVec.getLsbD_or.trans (Bool.or_true _)⟩
  case refine_1 =>
    obtain ⟨hda, hna, hea⟩ := IsInfOrZero.facts (.inl ha) st
    obtain ⟨hdb, hnb, heb⟩ := IsInfOrZero.facts (.inl hb) st
    simp [addW, addNumbers, deFlag, flagIf, hda, hdb, hna, hnb, hea, heb, ha, hb, hs, ← hinvalid]
  case refine_2 =>
    obtain ⟨hda, hna, hea⟩ := IsInfOrZero.facts (.inl ha) st
    obtain ⟨hdb, hnb, heb⟩ := IsInfOrZero.facts (.inl hb) st
    simp [subW, addNumbers, deFlag, flagIf, hda, hdb, hna, hnb, hea, heb, ha, hb, hs, ← hinvalid]
  case refine_3 =>
    obtain ⟨hda, hna, hea⟩ := IsInfOrZero.facts (.inr ha) st
    obtain ⟨hdb, hnb, heb⟩ := IsInfOrZero.facts (.inl hb) st
    simp [mulW, deFlag, flagIf, hda, hdb, hna, hnb, hea, heb, ha, hb, ← hinvalid]
  case refine_4 =>
    obtain ⟨hda, hna, hea⟩ := IsInfOrZero.facts (.inl ha) st
    obtain ⟨hdb, hnb, heb⟩ := IsInfOrZero.facts (.inr hb) st
    simp [mulW, deFlag, flagIf, hda, hdb, hna, hnb, hea, heb, ha, hb, ← hinvalid]
  case refine_5 =>
    obtain ⟨hda, hna, -⟩ := IsInfOrZero.facts (.inr ha) st
    obtain ⟨hdb, hnb, -⟩ := IsInfOrZero.facts (.inr hb) st
    simp [divW, hda, hdb, hna, hnb, ha, hb, ← hinvalid]
  case refine_6 =>
    obtain ⟨hda, hna, -⟩ := IsInfOrZero.facts (.inl ha) st
    obtain ⟨hdb, hnb, -⟩ := IsInfOrZero.facts (.inl hb) st
    simp [divW, hda, hdb, hna, hnb, ha, hb, ← hinvalid]
  case refine_8 =>
    obtain ⟨hda, hna, hea⟩ := IsInfOrZero.facts (.inr ha) st
    obtain ⟨hdb, hnb, heb⟩ := IsInfOrZero.facts (.inl hb) st
    simp [scalefW, flagIf, hda, hdb, hna, hnb, hea, heb, ha, hb, hs, ← hinvalid]
  case refine_9 =>
    obtain ⟨hda, hna, hea⟩ := IsInfOrZero.facts (.inl ha) st
    obtain ⟨hdb, hnb, heb⟩ := IsInfOrZero.facts (.inl hb) st
    simp [scalefW, flagIf, hda, hdb, hna, hnb, hea, heb, ha, hb, hs, ← hinvalid]

/-! ### The denormal flag -/

/-- DE is among the flags (R52). -/
def hasDE (fl : FlagSet) : Bool := fl.getLsbD 1

theorem hasDE_eq (fl : FlagSet) : fl.getLsbD 1 = hasDE fl := rfl

@[simp] theorem hasDE_or (x y : FlagSet) : hasDE (x ||| y) = (hasDE x || hasDE y) := BitVec.getLsbD_or

@[simp] theorem hasDE_zero : hasDE 0#6 = false := rfl

@[simp] theorem hasDE_flagIE : hasDE flagIE = false := rfl

@[simp] theorem hasDE_flagZE : hasDE flagZE = false := rfl

@[simp] theorem hasDE_flagIf_DE (c : Bool) : hasDE (flagIf c flagDE) = c := by cases c <;> rfl

@[simp] theorem hasDE_flagIf_IE (c : Bool) : hasDE (flagIf c flagIE) = false := by cases c <;> rfl

/-- The result of a rounding is tiny (R64). -/
def roundTiny (p : Params) (f : Fmt) (m : RoundMode) (s : Bool) (v : Mag) : Bool :=
  match p.tininess with
  | .after => !reaches (v.rint (v.log2 - f.p + 1) m s).1 (v.log2 - f.p + 1) f.emin
  | .before => decide (v.log2 < f.emin)

/-- A rounding overflows, is flushed, or is rounded on the grid of its binade or of the denormals (R62 to R64). -/
theorem roundPack_eq (p : Params) (f : Fmt) (st : Status) (s : Bool) (v : Mag) :
    roundPack p f st s v =
      if reaches (v.rint (v.log2 - f.p + 1) st.rc s).1 (v.log2 - f.p + 1) (f.emax + 1) then
        overflow f st s (v.rint (v.log2 - f.p + 1) st.rc s).2
      else if st.ftz && roundTiny p f st.rc s v then { val := zeroOf f s, flags := flagUE ||| flagPE }
      else
        { val := encodeReal f s (v.rint (max v.log2 f.emin - f.p + 1) st.rc s).1 (max v.log2 f.emin - f.p + 1)
          flags := flagIf (!(v.rint (max v.log2 f.emin - f.p + 1) st.rc s).2) flagPE |||
            flagIf (roundTiny p f st.rc s v &&
              (!(v.rint (max v.log2 f.emin - f.p + 1) st.rc s).2 || !st.underflowMasked)) flagUE } := by
  unfold roundPack roundTiny
  cases p.tininess <;> rfl

/-- No flag of IE, DE and ZE is in a union of sets that have none. -/
theorem low_or {x y : FlagSet} (hx : x &&& 0b000111 = 0) (hy : y &&& 0b000111 = 0) : (x ||| y) &&& 0b000111 = 0 := by
  have h : (x ||| y) &&& 0b000111 = (x &&& 0b000111) ||| (y &&& 0b000111) := by
    ext b hb
    simp [Bool.and_or_distrib_right]
  rw [h, hx, hy]
  rfl

theorem low_flagIf (c : Bool) {fl : FlagSet} (h : fl &&& 0b000111 = 0) : flagIf c fl &&& 0b000111 = 0 := by
  cases c
  · exact BitVec.zero_and
  · exact h

/-- A rounding sets no flag but OE, UE and PE (R62). -/
theorem roundPack_flags_low (p : Params) (f : Fmt) (st : Status) (s : Bool) (v : Mag) :
    (roundPack p f st s v).flags &&& 0b000111 = 0 := by
  have hO : flagOE &&& 0b000111 = 0 := rfl
  have hU : flagUE &&& 0b000111 = 0 := rfl
  have hP : flagPE &&& 0b000111 = 0 := rfl
  rw [roundPack_eq]
  split
  · exact low_or hO (low_flagIf _ hP)
  · split
    · exact low_or hU hP
    · exact low_or (low_flagIf _ hP) (low_flagIf _ hU)

@[simp] theorem hasDE_roundPackWith (p : Params) (f : Fmt) (st : Status) (fl : FlagSet) (s : Bool) (v : Mag) :
    hasDE (roundPackWith p f st fl s v).flags = hasDE fl := by
  have hlow : hasDE ((roundPack p f st s v).flags &&& 0b000111) = false := by rw [roundPack_flags_low]; rfl
  have hand : hasDE ((roundPack p f st s v).flags &&& 0b000111) = hasDE (roundPack p f st s v).flags :=
    BitVec.getLsbD_and.trans (Bool.and_true _)
  rw [roundPackWith, hasDE_or, ← hand, hlow, Bool.or_false]

@[simp] theorem hasDE_invalid (f : Fmt) (fl : FlagSet) : hasDE (invalid f fl).flags = hasDE fl := by
  rw [invalid, hasDE_or, hasDE_flagIE, Bool.or_false]

@[simp] theorem hasDE_nan1 (f : Fmt) (a : BitVec f.w) : hasDE (nan1 f a).flags = false := hasDE_flagIf_IE _

@[simp] theorem hasDE_nan2 (f : Fmt) (a b : BitVec f.w) : hasDE (nan2 f a b).flags = false := hasDE_flagIf_IE _

@[simp] theorem hasDE_deFlag (f : Fmt) (a b : BitVec f.w) : hasDE (deFlag f a b) = (isDenormal f a || isDenormal f b) :=
  hasDE_flagIf_DE _

theorem hasDE_addNumbers (p : Params) (f : Fmt) (st : Status) (a b : BitVec f.w) :
    hasDE (addNumbers p f st a b).flags = (isDenormal f a || isDenormal f b) := by
  unfold addNumbers
  dsimp only
  repeat' split
  all_goals simp

/-- The primitive sets DE exactly by a denormal operand, as it stands after DAZ, beside no NaN (R67). -/
def SetsDenormalFlag (op : Primitive) : Prop :=
  ∀ (p : Params) (f : Fmt) (st : Status) (a b : BitVec f.w),
    hasDE (op p f st a b).flags =
      (!(isNaN f a || isNaN f b) && (isDenormal f (dazW f st a) || isDenormal f (dazW f st b)))

theorem setsDenormalFlag (c : BitVec 5) :
    ∀ op ∈ ([addW, subW, mulW, minW, maxW, cmpW c] : List Primitive), SetsDenormalFlag op := by
  simp only [List.forall_mem_cons]
  refine ⟨?_, ?_, ?_, ?_, ?_, ?_, nofun⟩ <;> intro p f st a b
  case refine_1 =>
    simp only [addW, isNaN_dazW]
    cases isNaN f a || isNaN f b <;> simp [hasDE_addNumbers]
  case refine_2 =>
    simp only [subW, isNaN_dazW]
    cases isNaN f a || isNaN f b <;> simp [hasDE_addNumbers]
  case refine_3 =>
    simp only [mulW, isNaN_dazW]
    cases isNaN f a || isNaN f b
    · simp only [Bool.false_eq_true, if_false]
      repeat' split
      all_goals simp
    · simp
  case refine_4 | refine_5 =>
    simp only [minW, maxW, selectW, isNaN_dazW]
    cases isNaN f a || isNaN f b <;> simp
  case refine_6 =>
    simp only [cmpW, isNaN_dazW]
    cases isNaN f a || isNaN f b <;> simp

theorem hasDE_scalefW (d : BitVec 64) (p : Params) (f : Fmt) (st : Status) (a b : BitVec f.w) :
    hasDE (scalefW d p f st a b).flags =
      (!(isNaN f a || isNaN f b) && (isDenormal f (dazW f st a) || (isDenormal f (dazW f st b) && p.scalefDeB))) := by
  simp only [scalefW, isNaN_dazW]
  cases isNaN f a || isNaN f b
  · simp only [Bool.false_eq_true, if_false]
    repeat' split
    all_goals simp
  · simp only [if_true]
    split <;> simp

/-- Settles O41: without DAZ the operands are as they are. -/
theorem denormalFlag : Obligations.DenormalFlag := by
  refine ⟨fun c op hop p f st a b hdaz => ?_, fun d p f st a b hdaz => ?_⟩
  · rw [hasDE_eq, setsDenormalFlag c op hop, dazW_of_not_daz hdaz, dazW_of_not_daz hdaz]
    simp only [Bool.and_eq_true, Bool.or_eq_true, Bool.not_eq_true', Bool.or_eq_false_iff]
    exact and_comm
  · rw [hasDE_eq, hasDE_scalefW, dazW_of_not_daz hdaz, dazW_of_not_daz hdaz]
    simp only [Bool.and_eq_true, Bool.or_eq_true, Bool.not_eq_true', Bool.or_eq_false_iff]
    exact and_comm

/-! ### DAZ -/

/-- Divide and square root set DE, if they do, by a denormal as it stands after DAZ (R67). -/
theorem hasDE_divW {p : Params} {f : Fmt} {st : Status} {a b : BitVec f.w} (ha : isDenormal f (dazW f st a) = false)
    (hb : isDenormal f (dazW f st b) = false) : hasDE (divW p f st a b).flags = false := by
  simp only [divW]
  repeat' split
  all_goals simp [ha, hb]

theorem hasDE_sqrtW {p : Params} {f : Fmt} {st : Status} {b : BitVec f.w} (hb : isDenormal f (dazW f st b) = false) :
    hasDE (sqrtW p f st b).flags = false := by
  simp only [sqrtW]
  repeat' split
  all_goals simp [hb]

/-- Under DAZ the primitive's operands count as they stand after it, and DE is not set (R66). -/
def DazCounts (op : Primitive) (p : Params) (f : Fmt) (st : Status) (a b : BitVec f.w) : Prop :=
  op p f st a b =
      op p f st (if isDenormal f a then zeroOf f (sign f a) else a) (if isDenormal f b then zeroOf f (sign f b) else b) ∧
    (op p f st a b).flags.getLsbD 1 = false

/-- Settles O40: each primitive reads its operands through DAZ alone, which leaves no denormal. -/
theorem denormalsAreZeros : Obligations.DenormalsAreZeros := by
  intro c d op hop p f st a b hdaz
  have ha := isDenormal_dazW hdaz a
  have hb := isDenormal_dazW hdaz b
  have hde : ∀ op ∈ ([addW, subW, mulW, minW, maxW, cmpW c] : List Primitive), hasDE (op p f st a b).flags = false := by
    intro op hop
    rw [setsDenormalFlag c op hop, ha, hb, Bool.or_self, Bool.and_false]
  revert op
  change ∀ op ∈ _, DazCounts op p f st a b
  simp only [List.forall_mem_cons]
  refine ⟨⟨?_, hde addW (by simp)⟩, ⟨?_, hde subW (by simp)⟩, ⟨?_, hde mulW (by simp)⟩, ⟨?_, hasDE_divW ha hb⟩,
    ⟨?_, hde minW (by simp)⟩, ⟨?_, hde maxW (by simp)⟩, ⟨?_, hde (cmpW c) (by simp)⟩, ⟨?_, hasDE_sqrtW hb⟩, ⟨?_, ?_⟩, nofun⟩
  case refine_10 => rw [hasDE_eq, hasDE_scalefW, ha, hb, Bool.false_and, Bool.or_self, Bool.and_false]
  all_goals simp only [addW, subW, mulW, divW, minW, maxW, selectW, cmpW, unary, sqrtW, scalefW, dazW_idem hdaz]

end Sys2Proof.Machine

/-!
PROOF. What the rounding of an exact magnitude computes (spec/40_status_context.md R61): the comparison, the integer part and the
binary exponent are those of the real number that the magnitude stands for, and the rounding is to an integer on the side the mode
says.
-/

namespace Sys2Proof.Machine

/-! ### The real number of a magnitude -/

/-- The real number. -/
noncomputable def Mag.real : Mag → ℝ
  | .ratio n d e => (n : ℝ) / d * (2 : ℝ) ^ e
  | .root n e => √(n : ℝ) * (2 : ℝ) ^ e

/-- The numbers a magnitude is made of are positive, as its docstring asks. -/
def Mag.Pos : Mag → Prop
  | .ratio n d _ => 0 < n ∧ 0 < d
  | .root n _ => 0 < n

theorem two_zpow_pos (k : ℤ) : (0 : ℝ) < 2 ^ k := zpow_pos two_pos k

theorem Mag.real_pos {v : Mag} (h : v.Pos) : 0 < v.real := by
  cases v with
  | ratio n d e =>
    obtain ⟨hn, hd⟩ := h
    exact mul_pos (div_pos (Nat.cast_pos.2 hn) (Nat.cast_pos.2 hd)) (two_zpow_pos e)
  | root n e => exact mul_pos (Real.sqrt_pos.2 (Nat.cast_pos.2 h)) (two_zpow_pos e)

theorem pow2_pos (k : ℤ) : 0 < pow2 k := Nat.two_pow_pos _

theorem cast_pow2_pos (k : ℤ) : (0 : ℝ) < (pow2 k : ℝ) := Nat.cast_pos.2 (pow2_pos k)

/-- A power of two, with its negative part on the other side. -/
theorem zpow_mul_pow2_neg (k : ℤ) : (2 : ℝ) ^ k * pow2 (-k) = pow2 k := by
  obtain h | h := le_total 0 k
  · have hk : pow2 (-k) = 1 := by rw [pow2, Int.toNat_of_nonpos (by omega), pow_zero]
    rw [hk, Nat.cast_one, mul_one, pow2, Nat.cast_pow, Nat.cast_ofNat, ← zpow_natCast, Int.toNat_of_nonneg h]
  · have hk : pow2 k = 1 := by rw [pow2, Int.toNat_of_nonpos h, pow_zero]
    rw [hk, Nat.cast_one, pow2, Nat.cast_pow, Nat.cast_ofNat, ← zpow_natCast, Int.toNat_of_nonneg (by omega), ← zpow_add₀ two_ne_zero,
      add_neg_cancel, zpow_zero]

/-- A difference of exponents, as the two sides of a comparison have it. -/
theorem zpow_eq_of_pow2 (e k : ℤ) : (2 : ℝ) ^ e = (2 : ℝ) ^ k * (pow2 (e - k) / pow2 (k - e)) := by
  have h := zpow_mul_pow2_neg (e - k)
  rw [neg_sub] at h
  rw [← h, mul_div_assoc, div_self (cast_pow2_pos _).ne', mul_one, ← zpow_add₀ two_ne_zero, add_sub_cancel]

theorem zpow_two_mul (k : ℤ) : (2 : ℝ) ^ (2 * k) = ((2 : ℝ) ^ k) ^ 2 := by
  rw [mul_comm, zpow_mul, zpow_ofNat]

/-- The square of a root's real number. -/
theorem Mag.sq_real_root (n : ℕ) (e : ℤ) : (Mag.root n e).real ^ 2 = n * (2 : ℝ) ^ (2 * e) := by
  rw [Mag.real, mul_pow, Real.sq_sqrt n.cast_nonneg, zpow_two_mul]

/-! ### The comparison -/

/-- The comparison is one of natural numbers, that are the two sides in a positive unit, or their squares. -/
theorem Mag.exists_cmp (v : Mag) (h : v.Pos) (a : ℕ) (k : ℤ) :
    ∃ x y : ℕ, v.cmp a k = compare x y ∧ (v.real < a * (2 : ℝ) ^ k ↔ x < y) ∧ (a * (2 : ℝ) ^ k < v.real ↔ y < x) := by
  have ha : (0 : ℝ) ≤ a * (2 : ℝ) ^ k := mul_nonneg a.cast_nonneg (two_zpow_pos k).le
  cases v with
  | ratio n d e =>
    obtain ⟨-, hd⟩ := h
    have hd' : (0 : ℝ) < d := Nat.cast_pos.2 hd
    have hB := cast_pow2_pos (k - e)
    have hc : 0 < (2 : ℝ) ^ k / (d * pow2 (k - e)) := div_pos (two_zpow_pos k) (mul_pos hd' hB)
    have hx : (Mag.ratio n d e).real = (2 : ℝ) ^ k / (d * pow2 (k - e)) * (n * pow2 (e - k) : ℕ) := by
      rw [Mag.real, zpow_eq_of_pow2 e k]
      push_cast
      field_simp
    have hy : a * (2 : ℝ) ^ k = (2 : ℝ) ^ k / (d * pow2 (k - e)) * (a * d * pow2 (k - e) : ℕ) := by
      push_cast
      field_simp
    refine ⟨_, _, rfl, ?_, ?_⟩
    · rw [hx, hy, mul_lt_mul_iff_right₀ hc, Nat.cast_lt]
    · rw [hx, hy, mul_lt_mul_iff_right₀ hc, Nat.cast_lt]
  | root n e =>
    have hB := cast_pow2_pos (2 * (k - e))
    have hc : 0 < (2 : ℝ) ^ (2 * k) / pow2 (2 * (k - e)) := div_pos (two_zpow_pos _) hB
    have hx : (Mag.root n e).real ^ 2 = (2 : ℝ) ^ (2 * k) / pow2 (2 * (k - e)) * (n * pow2 (2 * (e - k)) : ℕ) := by
      rw [Mag.sq_real_root, zpow_eq_of_pow2 (2 * e) (2 * k), ← mul_sub, ← mul_sub]
      push_cast
      field_simp
    have hy : (a * (2 : ℝ) ^ k) ^ 2 = (2 : ℝ) ^ (2 * k) / pow2 (2 * (k - e)) * (a * a * pow2 (2 * (k - e)) : ℕ) := by
      rw [mul_pow, ← zpow_two_mul]
      push_cast
      field_simp
    have hv : 0 ≤ (Mag.root n e).real := (Mag.real_pos (v := .root n e) h).le
    refine ⟨_, _, rfl, ?_, ?_⟩
    · rw [← sq_lt_sq₀ hv ha, hx, hy, mul_lt_mul_iff_right₀ hc, Nat.cast_lt]
    · rw [← sq_lt_sq₀ ha hv, hx, hy, mul_lt_mul_iff_right₀ hc, Nat.cast_lt]

theorem Mag.cmp_eq_lt {v : Mag} (h : v.Pos) (a : ℕ) (k : ℤ) : v.cmp a k = .lt ↔ v.real < a * (2 : ℝ) ^ k := by
  obtain ⟨x, y, hcmp, hlt, -⟩ := v.exists_cmp h a k
  rw [hcmp, hlt, compare_lt_iff_lt]

theorem Mag.cmp_eq_gt {v : Mag} (h : v.Pos) (a : ℕ) (k : ℤ) : v.cmp a k = .gt ↔ a * (2 : ℝ) ^ k < v.real := by
  obtain ⟨x, y, hcmp, -, hgt⟩ := v.exists_cmp h a k
  rw [hcmp, hgt, compare_gt_iff_gt]

theorem Mag.cmp_eq_eq {v : Mag} (h : v.Pos) (a : ℕ) (k : ℤ) : v.cmp a k = .eq ↔ v.real = a * (2 : ℝ) ^ k := by
  obtain ⟨x, y, hcmp, hlt, hgt⟩ := v.exists_cmp h a k
  rw [hcmp, compare_eq_iff_eq, Nat.eq_iff_le_and_ge, ← not_lt, ← not_lt, ← hlt, ← hgt, not_lt, not_lt]
  exact ⟨fun ⟨h1, h2⟩ => le_antisymm h1 h2, fun h => ⟨h.le, h.ge⟩⟩

/-! ### The integer part -/

/-- The square root bit by bit keeps the root between `r` and `r + 2^k`. -/
theorem isqrtFrom_spec (n : ℕ) : ∀ k r : ℕ, r * r ≤ n → n < (r + 2 ^ k) * (r + 2 ^ k) →
    isqrtFrom n k r * isqrtFrom n k r ≤ n ∧ n < (isqrtFrom n k r + 1) * (isqrtFrom n k r + 1) := by
  intro k
  induction k with
  | zero => exact fun r hr hn => ⟨hr, hn⟩
  | succ k ih =>
    intro r hr hn
    simp only [isqrtFrom]
    split
    · rename_i h
      refine ih _ h ?_
      rwa [add_assoc, ← two_mul, ← pow_succ']
    · rename_i h
      exact ih r hr (not_le.1 h)

theorem isqrt_eq_sqrt (n : ℕ) : isqrt n = n.sqrt := by
  refine Nat.eq_sqrt.2 (isqrtFrom_spec n _ 0 (by simp) ?_)
  have hlog : n < 2 ^ (n.log2 + 1) := Nat.lt_log2_self
  have hle : n.log2 + 1 ≤ n.log2 / 2 + 1 + (n.log2 / 2 + 1) := by omega
  calc n < 2 ^ (n.log2 + 1) := hlog
    _ ≤ 2 ^ (n.log2 / 2 + 1 + (n.log2 / 2 + 1)) := Nat.pow_le_pow_right two_pos hle
    _ = (0 + 2 ^ (n.log2 / 2 + 1)) * (0 + 2 ^ (n.log2 / 2 + 1)) := by rw [zero_add, pow_add]

/-- The integer part of a square root is the root of the integer part. -/
theorem floor_sqrt_eq {x : ℝ} (hx : 0 ≤ x) : ⌊√x⌋₊ = ⌊x⌋₊.sqrt := by
  refine le_antisymm ?_ ?_
  · refine Nat.le_sqrt.2 (Nat.le_floor ?_)
    have h : (⌊√x⌋₊ : ℝ) ≤ √x := Nat.floor_le (Real.sqrt_nonneg x)
    calc ((⌊√x⌋₊ * ⌊√x⌋₊ : ℕ) : ℝ) = (⌊√x⌋₊ : ℝ) * ⌊√x⌋₊ := Nat.cast_mul _ _
      _ ≤ √x * √x := mul_self_le_mul_self (Nat.cast_nonneg _) h
      _ = x := Real.mul_self_sqrt hx
  · refine Nat.le_floor (Real.le_sqrt_of_sq_le ?_)
    have h : (⌊x⌋₊.sqrt : ℝ) ^ 2 = ((⌊x⌋₊.sqrt * ⌊x⌋₊.sqrt : ℕ) : ℝ) := by push_cast; ring
    rw [h]
    exact (Nat.cast_le.2 (Nat.sqrt_le _)).trans (Nat.floor_le hx)

theorem Mag.floor_eq {v : Mag} (h : v.Pos) (k : ℤ) : v.floor k = ⌊v.real / (2 : ℝ) ^ k⌋₊ := by
  have h2 := two_zpow_pos k
  cases v with
  | ratio n d e =>
    have hd : (0 : ℝ) < d := Nat.cast_pos.2 h.2
    have hB := cast_pow2_pos (k - e)
    have hq : (Mag.ratio n d e).real / (2 : ℝ) ^ k = ((n * pow2 (e - k) : ℕ) : ℝ) / (d * pow2 (k - e) : ℕ) := by
      rw [Mag.real, zpow_eq_of_pow2 e k]
      push_cast
      field_simp
    rw [hq, Nat.floor_div_eq_div]
    rfl
  | root n e =>
    have hB := cast_pow2_pos (2 * (k - e))
    have hv := (Mag.real_pos (v := .root n e) h).le
    have hq : ((Mag.root n e).real / (2 : ℝ) ^ k) ^ 2 = ((n * pow2 (2 * (e - k)) : ℕ) : ℝ) / (pow2 (2 * (k - e)) : ℕ) := by
      rw [div_pow, Mag.sq_real_root, ← zpow_two_mul, zpow_eq_of_pow2 (2 * e) (2 * k), ← mul_sub, ← mul_sub]
      have := (two_zpow_pos (2 * k)).ne'
      push_cast
      field_simp
    rw [← Real.sqrt_sq (div_nonneg hv h2.le), hq, floor_sqrt_eq (by positivity), Nat.floor_div_eq_div, ← isqrt_eq_sqrt]
    rfl

/-! ### The binary exponent -/

/-- The binary exponent of the real number: `floor(log2 v)`. -/
theorem Mag.log2_spec {v : Mag} (h : v.Pos) : (2 : ℝ) ^ v.log2 ≤ v.real ∧ v.real < (2 : ℝ) ^ (v.log2 + 1) := by
  have bounds {n : ℕ} (hn : 0 < n) : (2 : ℝ) ^ (n.log2 : ℤ) ≤ n ∧ (n : ℝ) < (2 : ℝ) ^ ((n.log2 : ℤ) + 1) := by
    have h1 : 2 ^ n.log2 ≤ n := Nat.log2_self_le hn.ne'
    have h2 : n < 2 ^ (n.log2 + 1) := Nat.lt_log2_self
    exact ⟨by exact_mod_cast h1, by exact_mod_cast h2⟩
  cases v with
  | ratio n d e =>
    obtain ⟨hn, hd⟩ := id h
    obtain ⟨hn1, hn2⟩ := bounds hn
    obtain ⟨hd1, hd2⟩ := bounds hd
    have hd0 : (0 : ℝ) < d := Nat.cast_pos.2 hd
    have hcmp := Mag.cmp_eq_lt h 1 (e + n.log2 - d.log2)
    rw [Nat.cast_one, one_mul] at hcmp
    have hlow : (2 : ℝ) ^ (e + n.log2 - d.log2 - 1) ≤ (Mag.ratio n d e).real := by
      have hp : (2 : ℝ) ^ (e + n.log2 - d.log2 - 1) = 2 ^ (n.log2 : ℤ) / 2 ^ ((d.log2 : ℤ) + 1) * 2 ^ e := by
        rw [← zpow_sub₀ two_ne_zero, ← zpow_add₀ two_ne_zero]
        congr 1
        ring
      rw [hp, Mag.real]
      gcongr
    have hhigh : (Mag.ratio n d e).real < (2 : ℝ) ^ (e + n.log2 - d.log2 + 1) := by
      have hp : (2 : ℝ) ^ (e + n.log2 - d.log2 + 1) = 2 ^ ((n.log2 : ℤ) + 1) / 2 ^ (d.log2 : ℤ) * 2 ^ e := by
        rw [← zpow_sub₀ two_ne_zero, ← zpow_add₀ two_ne_zero]
        congr 1
        ring
      rw [hp, Mag.real]
      have := two_zpow_pos (d.log2 : ℤ)
      gcongr
    simp only [Mag.log2]
    split
    · rename_i hlt
      rw [sub_add_cancel]
      exact ⟨hlow, hcmp.1 hlt⟩
    · rename_i hge
      exact ⟨not_lt.1 fun hlt => hge (hcmp.2 hlt), hhigh⟩
  | root n e =>
    obtain ⟨hn1, hn2⟩ := bounds h
    have hv := (Mag.real_pos (v := .root n e) h).le
    have hlow : (2 : ℝ) ^ (2 * ((n.log2 / 2 : ℕ) : ℤ)) ≤ n :=
      (zpow_le_zpow_right₀ one_le_two (by omega)).trans hn1
    have hhigh : (n : ℝ) < (2 : ℝ) ^ (2 * (((n.log2 / 2 : ℕ) : ℤ) + 1)) :=
      hn2.trans_le (zpow_le_zpow_right₀ one_le_two (by omega))
    simp only [Mag.log2]
    constructor
    · rw [← sq_le_sq₀ (two_zpow_pos _).le hv, Mag.sq_real_root, ← zpow_two_mul, mul_add, zpow_add₀ two_ne_zero, mul_comm]
      gcongr
    · have hsplit : 2 * (e + ((n.log2 / 2 : ℕ) : ℤ) + 1) = 2 * (((n.log2 / 2 : ℕ) : ℤ) + 1) + 2 * e := by ring
      rw [← sq_lt_sq₀ hv (two_zpow_pos _).le, Mag.sq_real_root, ← zpow_two_mul, hsplit, zpow_add₀ two_ne_zero]
      have := two_zpow_pos (2 * e)
      gcongr

/-! ### Rounding to an integer -/

/-- The mode rounds a magnitude of the sign away from zero, unless it is an integer (R61). -/
def RoundsAway : RoundMode → Bool → Prop
  | .ru, false | .rd, true => True
  | _, _ => False

/-- `r` is the integer that the mode gives for the magnitude `y` of a number with the sign `s` (R61). -/
structure Rounds (m : RoundMode) (s : Bool) (y : ℝ) (r : ℕ) : Prop where
  /-- It is one of the two integers around `y`. -/
  near : |(r : ℝ) - y| < 1
  /-- To nearest it is the nearer one, and the even one of two as near. -/
  nearest : m = .rn → |(r : ℝ) - y| ≤ 1 / 2 ∧ (|(r : ℝ) - y| = 1 / 2 → r % 2 = 0)
  /-- Away from zero it is not below `y`. -/
  above : RoundsAway m s → y ≤ r
  /-- Otherwise, and not to nearest, it is not above `y`. -/
  below : m ≠ .rn → ¬RoundsAway m s → (r : ℝ) ≤ y

/-- An integer rounds to itself. -/
theorem rounds_self (m : RoundMode) (s : Bool) (r : ℕ) : Rounds m s r r where
  near := by simp
  nearest := fun _ => by norm_num
  above := fun _ => le_rfl
  below := fun _ _ => le_rfl

/-- Between two integers, `roundsUp` picks the one the mode gives. -/
theorem rounds_of_between {m : RoundMode} {s : Bool} {y : ℝ} {q : ℕ} (hlow : (q : ℝ) < y) (hhigh : y < q + 1) {half : Ordering}
    (hgt : half = .gt ↔ (q : ℝ) + 1 / 2 < y) (heq : half = .eq ↔ y = (q : ℝ) + 1 / 2) :
    Rounds m s y (if roundsUp m s q half then q + 1 else q) := by
  have hup : |((q + 1 : ℕ) : ℝ) - y| = q + 1 - y := by
    push_cast
    exact abs_of_pos (by linarith)
  have hdown : |(q : ℝ) - y| = y - q := by rw [abs_sub_comm, abs_of_pos (by linarith)]
  have hnear : |(((if roundsUp m s q half then q + 1 else q : ℕ)) : ℝ) - y| < 1 := by
    split
    · rw [hup]; linarith
    · rw [hdown]; linarith
  refine ⟨hnear, ?_, ?_, ?_⟩
  · rintro rfl
    by_cases hr : roundsUp .rn s q half = true
    · rw [if_pos hr, hup]
      simp only [roundsUp, Bool.or_eq_true, Bool.and_eq_true, beq_iff_eq, hgt, heq] at hr
      obtain hr | ⟨hr, hodd⟩ := hr
      · exact ⟨by linarith, fun h => absurd h (by linarith)⟩
      · exact ⟨by linarith, fun _ => by omega⟩
    · rw [if_neg hr, hdown]
      simp only [roundsUp, Bool.or_eq_true, Bool.and_eq_true, beq_iff_eq, hgt, heq, not_or, not_and] at hr
      obtain ⟨hle, hodd⟩ := hr
      refine ⟨by linarith, fun h => ?_⟩
      have := hodd (by linarith)
      omega
  · intro haway
    have hr : roundsUp m s q half = true :=
      match m, s, haway with
      | .ru, false, _ | .rd, true, _ => rfl
    rw [if_pos hr]
    push_cast
    exact hhigh.le
  · intro hrn haway
    have hr : ¬roundsUp m s q half = true := by
      cases m <;> cases s <;> simp_all [roundsUp, RoundsAway]
    rw [if_neg hr]
    exact hlow.le

/-- The rounding to an integer is the mode's, and it says whether it is exact (R61). -/
theorem Mag.rint_spec {v : Mag} (h : v.Pos) (k : ℤ) (m : RoundMode) (s : Bool) :
    Rounds m s (v.real / (2 : ℝ) ^ k) (v.rint k m s).1 ∧
      ((v.rint k m s).2 = true ↔ ((v.rint k m s).1 : ℝ) = v.real / (2 : ℝ) ^ k) := by
  have h2 := two_zpow_pos k
  have hy : 0 ≤ v.real / (2 : ℝ) ^ k := (div_pos (Mag.real_pos h) h2).le
  have hexact : v.cmp (v.floor k) k = .eq ↔ v.real / (2 : ℝ) ^ k = (v.floor k : ℝ) := by
    rw [Mag.cmp_eq_eq h, div_eq_iff h2.ne']
  have hhalf : ((2 * v.floor k + 1 : ℕ) : ℝ) * (2 : ℝ) ^ (k - 1) = ((v.floor k : ℝ) + 1 / 2) * (2 : ℝ) ^ k := by
    rw [zpow_sub_one₀ two_ne_zero]
    push_cast
    ring
  have hgt : v.cmp (2 * v.floor k + 1) (k - 1) = .gt ↔ (v.floor k : ℝ) + 1 / 2 < v.real / (2 : ℝ) ^ k := by
    rw [Mag.cmp_eq_gt h, hhalf, lt_div_iff₀ h2]
  have heq : v.cmp (2 * v.floor k + 1) (k - 1) = .eq ↔ v.real / (2 : ℝ) ^ k = (v.floor k : ℝ) + 1 / 2 := by
    rw [Mag.cmp_eq_eq h, hhalf, div_eq_iff h2.ne']
  have hle : (v.floor k : ℝ) ≤ v.real / (2 : ℝ) ^ k := by
    rw [Mag.floor_eq h]
    exact Nat.floor_le hy
  have hlt : v.real / (2 : ℝ) ^ k < v.floor k + 1 := by
    rw [Mag.floor_eq h]
    exact Nat.lt_floor_add_one _
  unfold Mag.rint
  simp only
  split
  · rename_i he
    have he' := hexact.1 he
    rw [he']
    exact ⟨rounds_self m s _, by simp⟩
  · rename_i hne
    have hlow : (v.floor k : ℝ) < v.real / (2 : ℝ) ^ k := lt_of_le_of_ne hle fun h => hne (hexact.2 h.symm)
    refine ⟨rounds_of_between hlow hlt hgt heq, ?_⟩
    simp only [Bool.false_eq_true, false_iff]
    split
    · push_cast
      exact hlt.ne'
    · exact hlow.ne

end Sys2Proof.Machine

/-!
PROOF. The real number of a pattern and the pattern of a real number (spec/40_status_context.md R58, R62): a finite pattern is its
sign, its significand and the exponent of the significand's unit, and `encodeReal` gives the pattern of a number of the format.
-/

namespace Sys2Proof.Machine

/-! ### The real number of a pattern -/

theorem Fmt.emin_eq (f : Fmt) : f.emin = 1 - f.bias := by cases f <;> rfl

/-- The exponent fields of the finite numbers that are normal go from that of `emin` to that of `emax`. -/
theorem Fmt.expOnes_eq (f : Fmt) : (f.expOnes : ℤ) = f.emax - f.emin + 2 := by cases f <;> rfl

theorem Fmt.two_pow_p (f : Fmt) : 2 ^ f.p = 2 * 2 ^ (f.p - 1) := by cases f <;> rfl

theorem Fmt.cast_p_sub_one (f : Fmt) : ((f.p - 1 : ℕ) : ℤ) = f.p - 1 := by cases f <;> rfl

theorem sig_eq (f : Fmt) (x : BitVec f.w) : sig f x = (if expField f x = 0 then 0 else 2 ^ (f.p - 1)) + frac f x := by
  unfold sig
  split <;> simp

theorem sig_lt (f : Fmt) (x : BitVec f.w) : sig f x < 2 ^ f.p := by
  have ht := frac_lt f x
  have hp := f.two_pow_p
  rw [sig_eq]
  split <;> omega

/-- A significand without its hidden bit is that of the denormals' exponent. -/
theorem sig_normalized (f : Fmt) (x : BitVec f.w) : 2 ^ (f.p - 1) ≤ sig f x ∨ unitExp f x = f.grid := by
  by_cases he : expField f x = 0
  · right
    have hmin := f.emin_eq
    unfold unitExp Fmt.grid
    rw [he]
    omega
  · left
    rw [sig_eq, if_neg he]
    omega

theorem unitExp_eq (f : Fmt) (x : BitVec f.w) : unitExp f x = f.grid + ((max (expField f x) 1 - 1 : ℕ) : ℤ) := by
  have hmin := f.emin_eq
  unfold unitExp Fmt.grid
  omega

theorem grid_le_unitExp (f : Fmt) (x : BitVec f.w) : f.grid ≤ unitExp f x := by
  rw [unitExp_eq]
  omega

theorem sig_eq_zero_iff (f : Fmt) (x : BitVec f.w) : sig f x = 0 ↔ isZero f x = true := by
  have hp := Nat.two_pow_pos (f.p - 1)
  rw [sig_eq, isZero_iff]
  split <;> omega

/-- A sign, as a factor. -/
def signFactor (s : Bool) : ℚ := if s then -1 else 1

@[simp] theorem signFactor_true : signFactor true = -1 := rfl

@[simp] theorem signFactor_false : signFactor false = 1 := rfl

theorem abs_signFactor (s : Bool) : |signFactor s| = 1 := by cases s <;> simp

theorem signFactor_ne_zero (s : Bool) : signFactor s ≠ 0 := by cases s <;> simp

theorem signFactor_bne (s t : Bool) : signFactor (s != t) = signFactor s * signFactor t := by cases s <;> cases t <;> simp

theorem zpow_two_pos (k : ℤ) : (0 : ℚ) < 2 ^ k := zpow_pos two_pos k

theorem zpow_add_two (a b : ℤ) : (2 : ℚ) ^ (a + b) = 2 ^ a * 2 ^ b := zpow_add₀ two_ne_zero a b

/-- A pattern's real number is the integer significand times its unit (R58). -/
theorem realOf_eq (f : Fmt) (x : BitVec f.w) :
    realOf f x = signFactor (sign f x) * ((sig f x : ℚ) * (2 : ℚ) ^ unitExp f x) := by
  have hp : (2 : ℚ) ^ (f.p - 1) ≠ 0 := pow_ne_zero _ two_ne_zero
  have hcast : (2 : ℚ) ^ (f.p - 1) = 2 ^ ((f.p : ℤ) - 1) := by rw [← f.cast_p_sub_one, zpow_natCast]
  have hmin := f.emin_eq
  unfold realOf
  refine congrArg (signFactor (sign f x) * ·) ?_
  by_cases he : expField f x = 0
  · have hu : unitExp f x = f.emin + -((f.p : ℤ) - 1) := by
      unfold unitExp
      rw [he]
      omega
    rw [if_pos he, sig_eq, if_pos he, zero_add, hu, zpow_add_two, zpow_neg, ← hcast]
    field_simp
  · have hu : unitExp f x = (expField f x : ℤ) - f.bias + -((f.p : ℤ) - 1) := by
      unfold unitExp
      omega
    rw [if_neg he, sig_eq, if_neg he, hu, zpow_add_two, zpow_neg, ← hcast]
    push_cast
    field_simp

theorem abs_realOf (f : Fmt) (x : BitVec f.w) : |realOf f x| = (sig f x : ℚ) * (2 : ℚ) ^ unitExp f x := by
  rw [realOf_eq, abs_mul, abs_signFactor, one_mul, abs_of_nonneg (mul_nonneg (Nat.cast_nonneg _) (zpow_two_pos _).le)]

theorem realOf_eq_zero_iff (f : Fmt) (x : BitVec f.w) : realOf f x = 0 ↔ isZero f x = true := by
  rw [← abs_eq_zero, abs_realOf, mul_eq_zero, or_iff_left (zpow_two_pos _).ne', Nat.cast_eq_zero, sig_eq_zero_iff]

/-- On the format's grid the real number is the integer `scaled`. -/
theorem realOf_eq_scaled (f : Fmt) (x : BitVec f.w) : realOf f x = (scaled f x : ℚ) * (2 : ℚ) ^ f.grid := by
  have h : (scaled f x : ℚ) = signFactor (sign f x) * ((sig f x * 2 ^ (max (expField f x) 1 - 1) : ℕ) : ℚ) := by
    unfold scaled
    cases sign f x <;> simp
  rw [realOf_eq, h, unitExp_eq, zpow_add_two, zpow_natCast]
  push_cast
  ring

@[simp] theorem realOf_negate (f : Fmt) (x : BitVec f.w) : realOf f (negate f x) = -realOf f x := by
  have hs : sig f (negate f x) = sig f x := by rw [sig_eq, sig_eq, expField_negate, frac_negate]
  have hu : unitExp f (negate f x) = unitExp f x := by rw [unitExp_eq, unitExp_eq, expField_negate]
  rw [realOf_eq, realOf_eq, hs, hu, sign_negate]
  cases sign f x <;> simp

@[simp] theorem realOf_zeroOf (f : Fmt) (s : Bool) : realOf f (zeroOf f s) = 0 :=
  (realOf_eq_zero_iff f _).2 (isZero_zeroOf f s)

@[simp] theorem isFinite_zeroOf (f : Fmt) (s : Bool) : isFinite f (zeroOf f s) = true :=
  isFinite_iff.2 (by rw [expField_zeroOf]; exact f.expOnes_ne_zero.symm)

/-! ### The pattern of a number of the format -/

/-- The significand `c` in units of `2^q` is that of a finite number of the format. -/
structure IsSignificand (f : Fmt) (q : ℤ) (c : ℕ) : Prop where
  grid_le : f.grid ≤ q
  lt : c < 2 ^ f.p
  normalized : 2 ^ (f.p - 1) ≤ c ∨ q = f.grid
  le_emax : q + f.p - 1 ≤ f.emax

/-- The pattern with that significand. -/
theorem fields_of_isSignificand {f : Fmt} {q : ℤ} {c : ℕ} (h : IsSignificand f q c) (s : Bool) :
    let x := zeroOf f s ||| BitVec.ofNat f.w ((q - f.grid).toNat * 2 ^ (f.p - 1) + c)
    isFinite f x = true ∧ sign f x = s ∧ sig f x = c ∧ unitExp f x = q := by
  obtain ⟨hq, hlt, hnorm, hmax⟩ := h
  have hp := f.two_pow_p
  have hones := f.expOnes_eq
  have hgrid : f.grid = f.emin - f.p + 1 := rfl
  have hwidth := f.two_pow_signBit
  have hP := Nat.two_pow_pos (f.p - 1)
  -- the exponent field, the fraction, and the number below the sign
  obtain ⟨e, t, hfields, ht, he, hsig, hunit⟩ : ∃ e t : ℕ,
      (q - f.grid).toNat * 2 ^ (f.p - 1) + c = e * 2 ^ (f.p - 1) + t ∧ t < 2 ^ (f.p - 1) ∧ e < f.expOnes ∧
        (if e = 0 then 0 else 2 ^ (f.p - 1)) + t = c ∧ f.grid + ((max e 1 - 1 : ℕ) : ℤ) = q := by
    by_cases hc : c < 2 ^ (f.p - 1)
    · have hqg : q = f.grid := hnorm.resolve_left (not_le.2 hc)
      refine ⟨0, c, by rw [hqg, sub_self]; rfl, hc, by omega, by simp, by rw [hqg]; simp⟩
    · refine ⟨(q - f.grid).toNat + 1, c - 2 ^ (f.p - 1), ?_, by omega, by omega, ?_, by omega⟩
      · rw [add_one_mul]
        omega
      · rw [if_neg (Nat.succ_ne_zero _)]
        omega
  have hm : e * 2 ^ (f.p - 1) + t < 2 ^ (f.w - 1) := by
    calc e * 2 ^ (f.p - 1) + t < (e + 1) * 2 ^ (f.p - 1) := by rw [add_one_mul]; omega
      _ ≤ (f.expOnes + 1) * 2 ^ (f.p - 1) := Nat.mul_le_mul_right _ (by omega)
      _ = 2 ^ (f.w - 1) := hwidth.symm
  rw [hfields]
  obtain ⟨hE, hT⟩ := fields_of_magBits (magBits_zeroOf_or f s hm) ht
  refine ⟨isFinite_iff.2 (by omega), sign_zeroOf_or f s hm, ?_, ?_⟩
  · rw [sig_eq, hE, hT, hsig]
  · rw [unitExp_eq, hE, hunit]

/-- The exponent that `encodeReal` aligns the significand to. -/
def encodeUnit (f : Fmt) (m : ℕ) (k : ℤ) : ℤ := max (k + m.log2) f.emin - f.p + 1

/-- `encodeReal` of a number that its unit divides. -/
theorem encodeReal_eq {f : Fmt} {m : ℕ} {k : ℤ} {c : ℕ} (hm : m ≠ 0)
    (hc : (c : ℚ) * 2 ^ encodeUnit f m k = m * 2 ^ k) (s : Bool) :
    encodeReal f s m k =
      zeroOf f s ||| BitVec.ofNat f.w ((encodeUnit f m k - f.grid).toNat * 2 ^ (f.p - 1) + c) := by
  have hunit : max (k + (m.log2 : ℤ)) f.emin - f.p + 1 = encodeUnit f m k := rfl
  unfold encodeReal
  rw [if_neg hm]
  simp only [hunit]
  generalize encodeUnit f m k = q at *
  have hq := (zpow_two_pos q).ne'
  have hk := (zpow_two_pos k).ne'
  have hcq : (if q ≤ k then m * 2 ^ (k - q).toNat else m / 2 ^ (q - k).toNat) = c := by
    split
    · rename_i hle
      have hpow : (2 : ℚ) ^ k = 2 ^ (k - q).toNat * 2 ^ q := by
        rw [← zpow_natCast, Int.toNat_of_nonneg (by omega), ← zpow_add_two, sub_add_cancel]
      rw [hpow, ← mul_assoc] at hc
      have hcast : ((m * 2 ^ (k - q).toNat : ℕ) : ℚ) = c := by
        push_cast
        exact (mul_right_cancel₀ hq hc).symm
      exact Nat.cast_injective hcast
    · rename_i hlt
      have hpow : (2 : ℚ) ^ q = 2 ^ (q - k).toNat * 2 ^ k := by
        rw [← zpow_natCast, Int.toNat_of_nonneg (by omega), ← zpow_add_two, sub_add_cancel]
      rw [hpow, ← mul_assoc] at hc
      have hcast : ((c * 2 ^ (q - k).toNat : ℕ) : ℚ) = m := by
        push_cast
        exact mul_right_cancel₀ hk hc
      rw [← Nat.cast_injective hcast, Nat.mul_div_cancel _ (Nat.two_pow_pos _)]
  rw [hcq]

/-- A number of at most the format's range whose unit divides it has a significand of the format. -/
theorem isSignificand_encodeUnit {f : Fmt} {m : ℕ} {k : ℤ} {c : ℕ} (hm : m ≠ 0)
    (hc : (c : ℚ) * 2 ^ encodeUnit f m k = m * 2 ^ k) (hmax : (m : ℚ) * 2 ^ k < 2 ^ (f.emax + 1)) :
    IsSignificand f (encodeUnit f m k) c := by
  have hlog1 : ((2 : ℚ) ^ (m.log2 : ℤ)) ≤ m := by exact_mod_cast Nat.log2_self_le hm
  have hlog2 : (m : ℚ) < 2 ^ ((m.log2 : ℤ) + 1) := by exact_mod_cast Nat.lt_log2_self
  have hlow : (2 : ℚ) ^ (k + m.log2) ≤ m * 2 ^ k := by
    rw [add_comm, zpow_add_two]
    exact mul_le_mul_of_nonneg_right hlog1 (zpow_two_pos k).le
  have hhigh : (m : ℚ) * 2 ^ k < 2 ^ (k + m.log2 + 1) := by
    rw [add_assoc, add_comm, zpow_add_two]
    exact mul_lt_mul_of_pos_right hlog2 (zpow_two_pos k)
  have hgrid : f.grid = f.emin - f.p + 1 := rfl
  have hunit : encodeUnit f m k = max (k + (m.log2 : ℤ)) f.emin - f.p + 1 := rfl
  have hemin : f.emin ≤ f.emax := by cases f <;> decide
  have hle : k + m.log2 < f.emax + 1 := (zpow_lt_zpow_iff_right₀ one_lt_two).1 (hlow.trans_lt hmax)
  have hpos := zpow_two_pos (encodeUnit f m k)
  refine ⟨by omega, ?_, ?_, by omega⟩
  · have h : (c : ℚ) * 2 ^ encodeUnit f m k < 2 ^ (f.p : ℤ) * 2 ^ encodeUnit f m k := by
      rw [hc, ← zpow_add_two]
      exact hhigh.trans_le (zpow_le_zpow_right₀ one_le_two (by omega))
    exact_mod_cast lt_of_mul_lt_mul_right h hpos.le
  · by_cases he : k + m.log2 ≤ f.emin
    · right
      omega
    · left
      have h : 2 ^ ((f.p - 1 : ℕ) : ℤ) * 2 ^ encodeUnit f m k ≤ (c : ℚ) * 2 ^ encodeUnit f m k := by
        rw [hc, ← zpow_add_two, f.cast_p_sub_one]
        exact (zpow_le_zpow_right₀ one_le_two (by omega)).trans hlow
      exact_mod_cast le_of_mul_le_mul_right h hpos

/-- The pattern of a number of the format: it is finite, has the sign and the value, and the significand where that is not zero. -/
theorem encodeReal_spec {f : Fmt} {m : ℕ} {k : ℤ} {c : ℕ} (hc : (c : ℚ) * 2 ^ encodeUnit f m k = m * 2 ^ k)
    (hmax : (m : ℚ) * 2 ^ k < 2 ^ (f.emax + 1)) (s : Bool) :
    isFinite f (encodeReal f s m k) = true ∧ sign f (encodeReal f s m k) = s ∧
      realOf f (encodeReal f s m k) = signFactor s * (m * 2 ^ k) ∧ sig f (encodeReal f s m k) = c := by
  by_cases hm : m = 0
  · subst hm
    have hc0 : c = 0 := by
      rw [Nat.cast_zero, zero_mul, mul_eq_zero, or_iff_left (zpow_two_pos _).ne'] at hc
      exact_mod_cast hc
    have hz : encodeReal f s 0 k = zeroOf f s := if_pos rfl
    rw [hz, hc0]
    refine ⟨isFinite_zeroOf f s, sign_zeroOf f s, ?_, (sig_eq_zero_iff f _).2 (isZero_zeroOf f s)⟩
    rw [realOf_zeroOf, Nat.cast_zero, zero_mul, mul_zero]
  · rw [encodeReal_eq hm hc]
    obtain ⟨hfin, hsign, hsig, hunit⟩ := fields_of_isSignificand (isSignificand_encodeUnit hm hc hmax) s
    refine ⟨hfin, hsign, ?_, hsig⟩
    rw [realOf_eq, hsign, hsig, hunit, hc]

/-- The unit of a significand of `p` bits, or of fewer on the format's grid, is the one it is given in; but of the next power of two
it is the next one. -/
theorem encodeUnit_of_le {f : Fmt} {q : ℤ} {m : ℕ} (hq : f.grid ≤ q) (hm : m ≤ 2 ^ f.p)
    (hnorm : 2 ^ (f.p - 1) ≤ m ∨ q = f.grid) :
    encodeUnit f m q = if m = 2 ^ f.p then q + 1 else q := by
  have hgrid : f.grid = f.emin - f.p + 1 := rfl
  have hp := f.one_lt_p
  have hunit : encodeUnit f m q = max (q + (m.log2 : ℤ)) f.emin - f.p + 1 := rfl
  split
  · rename_i h
    rw [h, Nat.log2_two_pow] at hunit
    rw [h]
    omega
  · rename_i h
    have hlt : m < 2 ^ f.p := lt_of_le_of_ne hm h
    by_cases hlow : 2 ^ (f.p - 1) ≤ m
    · have hm0 : m ≠ 0 := by have := Nat.two_pow_pos (f.p - 1); omega
      have h1 : m.log2 < f.p := (Nat.log2_lt hm0).2 hlt
      have h2 : f.p - 1 ≤ m.log2 := (Nat.le_log2 hm0).2 hlow
      omega
    · have hqg := hnorm.resolve_left hlow
      by_cases hm0 : m = 0
      · subst hm0
        rw [Nat.log2_zero] at hunit
        omega
      · have h1 : m.log2 < f.p - 1 := (Nat.log2_lt hm0).2 (not_le.1 hlow)
        omega

/-- The fraction of a finite number is even when its significand is. -/
theorem frac_even_iff (f : Fmt) (x : BitVec f.w) : frac f x % 2 = sig f x % 2 := by
  have hp : 2 ^ (f.p - 1) = 2 * 2 ^ (f.p - 2) := by cases f <;> rfl
  rw [sig_eq]
  split
  · rw [zero_add]
  · omega

/-- The pattern of an integer on the grid of a binade, which may be the next power of two: it is finite, has the sign and the value,
and an even fraction if the integer is even. -/
theorem encodeReal_on_grid {f : Fmt} {q : ℤ} {m : ℕ} (hq : f.grid ≤ q) (hm : m ≤ 2 ^ f.p)
    (hnorm : 2 ^ (f.p - 1) ≤ m ∨ q = f.grid) (hmax : (m : ℚ) * 2 ^ q < 2 ^ (f.emax + 1)) (s : Bool) :
    isFinite f (encodeReal f s m q) = true ∧ sign f (encodeReal f s m q) = s ∧
      realOf f (encodeReal f s m q) = signFactor s * (m * 2 ^ q) ∧
      (m % 2 = 0 → frac f (encodeReal f s m q) % 2 = 0) := by
  have hunit := encodeUnit_of_le hq hm hnorm
  have hP : 2 ^ f.p = 2 * 2 ^ (f.p - 1) := f.two_pow_p
  obtain ⟨c, hc, hpar⟩ : ∃ c : ℕ, (c : ℚ) * 2 ^ encodeUnit f m q = m * 2 ^ q ∧ (m % 2 = 0 → c % 2 = 0) := by
    rw [hunit]
    split
    · rename_i h
      refine ⟨2 ^ (f.p - 1), ?_, fun _ => by cases f <;> decide⟩
      rw [h, hP, zpow_add_two, zpow_one]
      push_cast
      ring
    · exact ⟨m, rfl, id⟩
  obtain ⟨hfin, hsign, hreal, hsig⟩ := encodeReal_spec hc hmax s
  refine ⟨hfin, hsign, hreal, fun h => ?_⟩
  rw [frac_even_iff, hsig, hpar h]

end Sys2Proof.Machine

/-!
PROOF. Rounding to an integer and exact zeros (spec/40_status_context.md R61, R65; spec/45_round_horizontal.md R164).
-/

namespace Sys2Proof.Machine

/-! ### The modes -/

/-- A rational number to nearest: the integer no further than a half, and the even one at a half. -/
theorem roundedTo_rn_eq {x : ℚ} {z : ℤ} (hnear : |(z : ℚ) - x| ≤ 1 / 2) (heven : |(z : ℚ) - x| = 1 / 2 → z % 2 = 0) :
    roundedTo .rn x = z := by
  obtain ⟨hlow, hhigh⟩ := abs_le.1 hnear
  have hf := Int.floor_le x
  have hf' := Int.lt_floor_add_one x
  have hge : ⌊x⌋ ≤ z := by
    have h : ((⌊x⌋ : ℤ) : ℚ) < ((z + 1 : ℤ) : ℚ) := by push_cast; linarith
    have := Int.cast_lt.1 h
    omega
  have hle : z ≤ ⌊x⌋ + 1 := by
    have h : ((z : ℤ) : ℚ) < ((⌊x⌋ + 2 : ℤ) : ℚ) := by push_cast; linarith
    have := Int.cast_lt.1 h
    omega
  unfold roundedTo
  simp only
  obtain hz | hz : z = ⌊x⌋ ∨ z = ⌊x⌋ + 1 := by omega
  · have hcast : (z : ℚ) = ⌊x⌋ := by rw [hz]
    split_ifs with h1 h2 h3
    · exact hz.symm
    · linarith
    · exact hz.symm
    · have htie : |(z : ℚ) - x| = 1 / 2 := by rw [hcast, abs_sub_comm, abs_of_nonneg (by linarith)]; linarith
      exact absurd (hz ▸ heven htie) h3
  · have hcast : (z : ℚ) = ⌊x⌋ + 1 := by rw [hz]; push_cast; rfl
    split_ifs with h1 h2 h3
    · linarith
    · exact hz.symm
    · have htie : |(z : ℚ) - x| = 1 / 2 := by rw [hcast, abs_of_nonneg (by linarith)]; linarith
      have := heven htie
      omega
    · exact hz.symm

/-- An integer with the sign. -/
def signedInt (s : Bool) (r : ℕ) : ℤ := if s then -(r : ℤ) else r

theorem cast_signedInt (s : Bool) (r : ℕ) : (signedInt s r : ℚ) = signFactor s * r := by cases s <;> simp [signedInt]

/-- Rounding a magnitude with its sign is rounding the signed number (R61). -/
theorem Rounds.roundedTo_eq {m : RoundMode} {s : Bool} {q : ℚ} {r : ℕ} (h : Rounds m s (q : ℝ) r) (hq : 0 < q) :
    signedInt s r = roundedTo m (signFactor s * q) := by
  have hnear : |(r : ℚ) - q| < 1 := by exact_mod_cast h.near
  obtain ⟨hlow, hhigh⟩ := abs_lt.1 hnear
  have habove : RoundsAway m s → q ≤ r := fun ha => by exact_mod_cast h.above ha
  have hbelow : m ≠ .rn → ¬RoundsAway m s → (r : ℚ) ≤ q := fun hm ha => by exact_mod_cast h.below hm ha
  have hcast := cast_signedInt s r
  symm
  cases m with
  | rn =>
    obtain ⟨hhalf, htie⟩ := h.nearest rfl
    have hdist : |(signedInt s r : ℚ) - signFactor s * q| = |(r : ℚ) - q| := by
      rw [hcast, ← mul_sub, abs_mul, abs_signFactor, one_mul]
    have hreal : |(r : ℝ) - (q : ℝ)| = ((|(r : ℚ) - q| : ℚ) : ℝ) := by push_cast; rfl
    have hhalf_cast : (1 / 2 : ℝ) = ((1 / 2 : ℚ) : ℝ) := by norm_num
    rw [hreal, hhalf_cast] at hhalf htie
    refine roundedTo_rn_eq (hdist ▸ Rat.cast_le.1 hhalf) fun he => ?_
    have heven : r % 2 = 0 := htie (congrArg _ (hdist ▸ he))
    unfold signedInt
    split <;> omega
  | rd =>
    refine Int.floor_eq_iff.2 ?_
    rw [hcast]
    cases s with
    | false =>
      have := hbelow nofun nofun
      simp only [signFactor_false, one_mul]
      exact ⟨this, by linarith⟩
    | true =>
      have := habove trivial
      simp only [signFactor_true]
      exact ⟨by linarith, by linarith⟩
  | ru =>
    refine Int.ceil_eq_iff.2 ?_
    rw [hcast]
    cases s with
    | false =>
      have := habove trivial
      simp only [signFactor_false, one_mul]
      exact ⟨by linarith, this⟩
    | true =>
      have := hbelow nofun nofun
      simp only [signFactor_true]
      exact ⟨by linarith, by linarith⟩
  | rz =>
    have hle := hbelow nofun (by cases s <;> exact not_false)
    cases s with
    | false =>
      have hpos : 0 ≤ signFactor false * q := by rw [signFactor_false]; linarith
      refine (if_pos hpos).trans (Int.floor_eq_iff.2 ?_)
      rw [hcast, signFactor_false]
      exact ⟨by linarith, by linarith⟩
    | true =>
      have hneg : ¬0 ≤ signFactor true * q := by rw [signFactor_true]; linarith
      refine (if_neg hneg).trans (Int.ceil_eq_iff.2 ?_)
      rw [hcast, signFactor_true]
      exact ⟨by linarith, by linarith⟩

/-- The rational number of a ratio in a unit. -/
theorem Mag.real_ratio_div (n d : ℕ) (e k : ℤ) :
    (Mag.ratio n d e).real / (2 : ℝ) ^ k = (((n : ℚ) / d * (2 : ℚ) ^ (e - k) : ℚ) : ℝ) := by
  rw [Mag.real, zpow_sub₀ two_ne_zero]
  push_cast
  ring

/-- Settles O53: the integer that `Mag.rint` computes is the one that the mode gives for the magnitude, and so for the number. -/
theorem roundingModes : Obligations.RoundingModes := by
  refine ⟨⟨rfl, rfl, rfl, rfl⟩, fun n d e k m s hn hd => ?_⟩
  obtain ⟨hround, hexact⟩ := Mag.rint_spec (v := .ratio n d e) ⟨hn, hd⟩ k m s
  rw [Mag.real_ratio_div] at hround hexact
  have hq : 0 < (n : ℚ) / d * (2 : ℚ) ^ (e - k) :=
    mul_pos (div_pos (Nat.cast_pos.2 hn) (Nat.cast_pos.2 hd)) (zpow_two_pos _)
  have h := hround.roundedTo_eq hq
  refine ⟨?_, by exact_mod_cast hexact⟩
  cases s with
  | false => simpa [signedInt] using h
  | true => simpa [signedInt] using h

/-! ### The sign of an exact zero -/

theorem zeroSum_eq (f : Fmt) (st : Status) (a b : BitVec f.w) :
    zeroSum f st a b =
      zeroOf f (if isZero f a && isZero f b && (sign f a == sign f b) then sign f a else st.rc == .rd) := by
  unfold zeroSum
  split <;> rfl

/-- The sum of two finite numbers that is zero (R65). -/
theorem addNumbers_of_zero {p : Params} {f : Fmt} {st : Status} {a b : BitVec f.w} (ha : isInf f a = false)
    (hb : isInf f b = false) (h : realOf f a + realOf f b = 0) : (addNumbers p f st a b).val = zeroSum f st a b := by
  have hx : scaled f a + scaled f b = 0 := by
    rw [realOf_eq_scaled, realOf_eq_scaled, ← add_mul, mul_eq_zero, or_iff_left (zpow_two_pos _).ne'] at h
    exact_mod_cast h
  simp [addNumbers, ha, hb, hx]

/-- Settles O39: the branch of each primitive for an exact zero, whose operands are no NaN and no infinity. -/
theorem signOfExactZero : Obligations.SignOfExactZero := by
  intro p f st a b ha hb hdaz
  have hna := isNaN_of_isFinite ha
  have hnb := isNaN_of_isFinite hb
  have hia := isInf_of_isFinite ha
  have hib := isInf_of_isFinite hb
  refine ⟨fun h => ?_, fun h => ?_, fun h => ?_, fun hz hnz => ?_, fun hz => ?_⟩
  · simp only [addW, dazW_of_not_daz hdaz, hna, hnb, Bool.or_self, Bool.false_eq_true, if_false]
    rw [addNumbers_of_zero hia hib h, zeroSum_eq]
  · have hsign : (sign f a == !sign f b) = (sign f a != sign f b) := by cases sign f a <;> cases sign f b <;> rfl
    simp only [subW, dazW_of_not_daz hdaz, hna, hnb, Bool.or_self, Bool.false_eq_true, if_false]
    rw [addNumbers_of_zero hia (by rw [isInf_negate, hib]) (by rw [realOf_negate, ← sub_eq_add_neg, h]), zeroSum_eq, isZero_negate,
      sign_negate, hsign]
  · have hz : (isZero f a || isZero f b) = true := by
      rw [Bool.or_eq_true, ← realOf_eq_zero_iff, ← realOf_eq_zero_iff]
      exact mul_eq_zero.1 h
    simp [mulW, dazW_of_not_daz hdaz, hna, hnb, hia, hib, hz]
  · simp [divW, dazW_of_not_daz hdaz, hna, hnb, hia, hib, hz, hnz]
  · simp [sqrtW, dazW_of_not_daz hdaz, hnb, hz]

/-! ### ROUND -/

/-- The unit of a finite number is at most that of the largest. -/
theorem unitExp_le_of_isFinite {f : Fmt} {x : BitVec f.w} (h : isFinite f x = true) : unitExp f x + f.p - 1 ≤ f.emax := by
  have hle := expField_le f x
  have hne := isFinite_iff.1 h
  have hones := f.expOnes_eq
  have hemin : f.emin ≤ f.emax := by cases f <;> decide
  rw [unitExp_eq, Fmt.grid]
  omega

theorem abs_realOf_lt {f : Fmt} {x : BitVec f.w} (h : isFinite f x = true) : |realOf f x| < 2 ^ (f.emax + 1) := by
  have hsig : (sig f x : ℚ) < 2 ^ (f.p : ℤ) := by exact_mod_cast sig_lt f x
  have hunit := unitExp_le_of_isFinite h
  rw [abs_realOf]
  calc (sig f x : ℚ) * 2 ^ unitExp f x < 2 ^ (f.p : ℤ) * 2 ^ unitExp f x := mul_lt_mul_of_pos_right hsig (zpow_two_pos _)
    _ = 2 ^ ((f.p : ℤ) + unitExp f x) := (zpow_add_two _ _).symm
    _ ≤ 2 ^ (f.emax + 1) := zpow_le_zpow_right₀ one_le_two (by omega)

/-- Two ways to write a number give it the same binary exponent. -/
theorem log2_add_eq {m m' : ℕ} {k k' : ℤ} (hm : m ≠ 0) (hm' : m' ≠ 0) (h : (m : ℚ) * 2 ^ k = m' * 2 ^ k') :
    k + m.log2 = k' + m'.log2 := by
  have bounds {n : ℕ} {j : ℤ} (hn : n ≠ 0) : (2 : ℚ) ^ (j + n.log2) ≤ n * 2 ^ j ∧ (n : ℚ) * 2 ^ j < 2 ^ (j + n.log2 + 1) := by
    have h1 : ((2 : ℚ) ^ (n.log2 : ℤ)) ≤ n := by exact_mod_cast Nat.log2_self_le hn
    have h2 : (n : ℚ) < 2 ^ ((n.log2 : ℤ) + 1) := by exact_mod_cast Nat.lt_log2_self
    rw [add_comm j, zpow_add_two, add_right_comm, zpow_add_two]
    exact ⟨mul_le_mul_of_nonneg_right h1 (zpow_two_pos j).le, mul_lt_mul_of_pos_right h2 (zpow_two_pos j)⟩
  obtain ⟨h1, h2⟩ := bounds (j := k) hm
  obtain ⟨h3, h4⟩ := bounds (j := k') hm'
  have hle := (zpow_lt_zpow_iff_right₀ one_lt_two).1 (h1.trans_lt (h ▸ h4))
  have hge := (zpow_lt_zpow_iff_right₀ one_lt_two).1 (h3.trans_lt (h ▸ h2))
  omega

/-- An integer that a significand of `p` bits in a unit of at least 1 is, or one of at most `2^(p-1)`, is a number of the format. -/
theorem exists_significand_of_integral {f : Fmt} {x : BitVec f.w} {r : ℕ}
    (h : (r : ℚ) = sig f x * 2 ^ unitExp f x ∧ 0 ≤ unitExp f x ∨ r ≤ 2 ^ (f.p - 1)) :
    ∃ c : ℕ, (c : ℚ) * 2 ^ encodeUnit f r 0 = r * 2 ^ (0 : ℤ) := by
  have hp := f.one_lt_p
  have hgrid : f.grid = f.emin - f.p + 1 := rfl
  have hemin : f.emin ≤ 0 := by cases f <;> decide
  by_cases hr : r = 0
  · exact ⟨0, by rw [hr, Nat.cast_zero, zero_mul, zero_mul]⟩
  obtain ⟨hval, hunit⟩ | hle := h
  · have hsig : sig f x ≠ 0 := by
      rintro h0
      rw [h0, Nat.cast_zero, zero_mul] at hval
      exact hr (by exact_mod_cast hval)
    have hlog := log2_add_eq (k := 0) (k' := unitExp f x) hr hsig (by rw [zpow_zero, mul_one, hval])
    have hunit' : encodeUnit f r 0 = encodeUnit f (sig f x) (unitExp f x) := by unfold encodeUnit; rw [hlog]
    refine ⟨sig f x, ?_⟩
    rw [hunit', encodeUnit_of_le (grid_le_unitExp f x) (sig_lt f x).le (sig_normalized f x), if_neg (sig_lt f x).ne, zpow_zero,
      mul_one, hval]
  · have hlog : r.log2 ≤ f.p - 1 := by
      have h : r.log2 < f.p := (Nat.log2_lt hr).2 (by rw [f.two_pow_p]; have := Nat.two_pow_pos (f.p - 1); omega)
      omega
    have hunit : encodeUnit f r 0 ≤ 0 := by
      unfold encodeUnit
      omega
    refine ⟨r * 2 ^ (-encodeUnit f r 0).toNat, ?_⟩
    have hpow : (2 : ℚ) ^ (-encodeUnit f r 0).toNat * 2 ^ encodeUnit f r 0 = 1 := by
      rw [← zpow_natCast, Int.toNat_of_nonneg (by omega), ← zpow_add_two, neg_add_cancel, zpow_zero]
    push_cast
    rw [mul_assoc, hpow]

/-- An integer has no other rounding. -/
theorem Rounds.eq_of_integral {m : RoundMode} {s : Bool} {n r : ℕ} (h : Rounds m s (n : ℝ) r) : r = n := by
  obtain ⟨hlow, hhigh⟩ := abs_lt.1 h.near
  have h1 : (r : ℝ) < ((n + 1 : ℕ) : ℝ) := by push_cast; linarith
  have h2 : (n : ℝ) < ((r + 1 : ℕ) : ℝ) := by push_cast; linarith
  have h1' := Nat.cast_lt.1 h1
  have h2' := Nat.cast_lt.1 h2
  omega

/-- A signed integer's magnitude is an integer, and conversely. -/
theorem eq_floor_iff {s : Bool} {q : ℚ} {m : RoundMode} {r : ℕ} (h : Rounds m s (q : ℝ) r) (hq : 0 ≤ q) :
    (signFactor s * q = (⌊signFactor s * q⌋ : ℚ)) ↔ (r : ℚ) = q := by
  constructor
  · intro hint
    obtain ⟨n, hn⟩ : ∃ n : ℕ, q = n := by
      refine ⟨⌊signFactor s * q⌋.natAbs, ?_⟩
      have habs : |signFactor s * q| = q := by rw [abs_mul, abs_signFactor, one_mul, abs_of_nonneg hq]
      rw [Nat.cast_natAbs, Int.cast_abs, ← hint, habs]
    have hr : r = n := by
      rw [hn] at h
      exact Rounds.eq_of_integral (by exact_mod_cast h)
    rw [hr, hn]
  · intro hr
    rw [← hr, ← cast_signedInt, Int.floor_intCast]

/-- The rounding of a finite number that is not zero to an integer, and its pattern (R164). -/
theorem rint_of_isFinite {f : Fmt} {b : BitVec f.w} (hfin : isFinite f b = true) (hz : isZero f b = false) (m : RoundMode) :
    let r := (Mag.ratio (sig f b) 1 (unitExp f b)).rint 0 m (sign f b)
    isFinite f (encodeReal f (sign f b) r.1 0) = true ∧ sign f (encodeReal f (sign f b) r.1 0) = sign f b ∧
      realOf f (encodeReal f (sign f b) r.1 0) = roundedTo m (realOf f b) ∧
      (r.2 = true ↔ realOf f b = (⌊realOf f b⌋ : ℚ)) := by
  intro r
  have hsig : 0 < sig f b := Nat.pos_of_ne_zero fun h0 => Bool.false_ne_true (hz.symm.trans ((sig_eq_zero_iff f b).1 h0))
  obtain ⟨hround, hexact⟩ := Mag.rint_spec (v := .ratio (sig f b) 1 (unitExp f b)) ⟨hsig, one_pos⟩ 0 m (sign f b)
  have hq : (sig f b : ℚ) / (1 : ℕ) * 2 ^ (unitExp f b - 0) = |realOf f b| := by
    rw [abs_realOf, Nat.cast_one, div_one, sub_zero]
  rw [Mag.real_ratio_div, hq] at hround hexact
  have hreal : realOf f b = signFactor (sign f b) * |realOf f b| := by rw [abs_realOf, ← realOf_eq]
  have hpos : 0 < |realOf f b| := abs_pos.2 fun h0 => Bool.false_ne_true (hz.symm.trans ((realOf_eq_zero_iff f b).1 h0))
  have hlt := abs_realOf_lt hfin
  have hcases : (r.1 : ℚ) = sig f b * 2 ^ unitExp f b ∧ 0 ≤ unitExp f b ∨ r.1 ≤ 2 ^ (f.p - 1) := by
    by_cases hu : 0 ≤ unitExp f b
    · left
      have hint : |realOf f b| = ((sig f b * 2 ^ (unitExp f b).toNat : ℕ) : ℚ) := by
        rw [abs_realOf]
        push_cast
        rw [← zpow_natCast, Int.toNat_of_nonneg hu]
      rw [hint] at hround
      have hr : r.1 = sig f b * 2 ^ (unitExp f b).toNat := Rounds.eq_of_integral (by exact_mod_cast hround)
      rw [← abs_realOf, hint, hr]
      exact ⟨rfl, hu⟩
    · right
      have hsmall : |realOf f b| < 2 ^ (f.p - 1) := by
        have hsig' : (sig f b : ℚ) < 2 ^ (f.p : ℤ) := by exact_mod_cast sig_lt f b
        rw [abs_realOf, ← zpow_natCast, f.cast_p_sub_one]
        calc (sig f b : ℚ) * 2 ^ unitExp f b < 2 ^ (f.p : ℤ) * 2 ^ unitExp f b :=
              mul_lt_mul_of_pos_right hsig' (zpow_two_pos _)
          _ = 2 ^ ((f.p : ℤ) + unitExp f b) := (zpow_add_two _ _).symm
          _ ≤ 2 ^ ((f.p : ℤ) - 1) := zpow_le_zpow_right₀ one_le_two (by omega)
      have hnear : |(r.1 : ℚ) - (|realOf f b|)| < 1 := by exact_mod_cast hround.near
      have h : (r.1 : ℚ) < ((2 ^ (f.p - 1) + 1 : ℕ) : ℚ) := by
        push_cast
        linarith [(abs_lt.1 hnear).2]
      exact Nat.lt_succ_iff.1 (Nat.cast_lt.1 h)
  have hmax : (r.1 : ℚ) * 2 ^ (0 : ℤ) < 2 ^ (f.emax + 1) := by
    rw [zpow_zero, mul_one]
    obtain ⟨hval, -⟩ | hle := hcases
    · rw [hval, ← abs_realOf]
      exact hlt
    · have hp : ((f.p - 1 : ℕ) : ℤ) < f.emax + 1 := by cases f <;> decide
      calc (r.1 : ℚ) ≤ 2 ^ (((f.p - 1 : ℕ)) : ℤ) := by exact_mod_cast hle
        _ < 2 ^ (f.emax + 1) := zpow_lt_zpow_right₀ one_lt_two hp
  obtain ⟨c, hc⟩ := exists_significand_of_integral hcases
  obtain ⟨hfin', hsign', hval', -⟩ := encodeReal_spec hc hmax (sign f b)
  refine ⟨hfin', hsign', ?_, ?_⟩
  · rw [hval', zpow_zero, mul_one, ← cast_signedInt, hround.roundedTo_eq hpos, ← hreal]
  · rw [hreal, eq_floor_iff hround hpos.le]
    exact_mod_cast hexact

/-- Settles O48: a zero is its own rounding, and another finite number is rounded to the integer the mode gives. -/
theorem roundsToIntegral : Obligations.RoundsToIntegral := by
  intro p f st b hfin hdaz
  by_cases hz : isZero f b = true
  · have hround : roundW p f st b = { val := b, flags := 0 } := by
      simp [roundW, hdaz, isNaN_of_isZero hz, hz]
    have h0 := (realOf_eq_zero_iff f b).2 hz
    have hzero : roundedTo st.rc 0 = 0 := by cases st.rc <;> simp [roundedTo]
    rw [hround, h0, hzero]
    exact ⟨hfin, Int.cast_zero.symm, rfl, by simp⟩
  · have hz' : isZero f b = false := by simpa using hz
    obtain ⟨hfin', hsign', hval', hexact⟩ := rint_of_isFinite hfin hz' st.rc
    have hround : roundW p f st b =
        { val := encodeReal f (sign f b) ((Mag.ratio (sig f b) 1 (unitExp f b)).rint 0 st.rc (sign f b)).1 0
          flags := flagIf (!((Mag.ratio (sig f b) 1 (unitExp f b)).rint 0 st.rc (sign f b)).2) flagPE } := by
      simp [roundW, hdaz, isNaN_of_isFinite hfin, isInf_of_isFinite hfin, hz']
    rw [hround]
    refine ⟨hfin', hval', hsign', ?_⟩
    by_cases hint : realOf f b = (⌊realOf f b⌋ : ℚ)
    · rw [if_pos hint, hexact.2 hint]
      rfl
    · have hne : ((Mag.ratio (sig f b) 1 (unitExp f b)).rint 0 st.rc (sign f b)).2 = false := by
        simpa using fun h => hint (hexact.1 h)
      rw [if_neg hint, hne]
      rfl

end Sys2Proof.Machine

/-!
PROOF. `RoundPack_w` (spec/40_status_context.md R62 to R64): when a rounding overflows, is flushed or is tiny, and what it gives
otherwise, of any exact magnitude.
-/

namespace Sys2Proof.Machine

/-! ### Which rounding reaches a power of two -/

/-- `2^t ≤ m * 2^k`. -/
theorem reaches_iff (m : ℕ) (k t : ℤ) : reaches m k t = true ↔ (2 : ℝ) ^ t ≤ m * (2 : ℝ) ^ k := by
  have hB := cast_pow2_pos (k - t)
  rw [reaches, decide_eq_true_iff, zpow_eq_of_pow2 t k, mul_comm (m : ℝ), mul_le_mul_iff_right₀ (two_zpow_pos k), div_le_iff₀ hB]
  exact_mod_cast Iff.rfl

/-- An even integer is reached to nearest from the half below it on. -/
theorem Rounds.le_iff_of_nearest {s : Bool} {y : ℝ} {r : ℕ} (h : Rounds .rn s y r) {N : ℕ} (hN : N % 2 = 0) :
    N ≤ r ↔ (N : ℝ) - 1 / 2 ≤ y := by
  obtain ⟨hhalf, htie⟩ := h.nearest rfl
  obtain ⟨hlow, hhigh⟩ := abs_le.1 hhalf
  constructor
  · intro hle
    have : (N : ℝ) ≤ r := Nat.cast_le.2 hle
    linarith
  · intro hy
    by_contra hlt
    have hr : (r : ℝ) + 1 ≤ N := by exact_mod_cast not_le.1 hlt
    have hat : (r : ℝ) - y = -(1 / 2) := by linarith
    have heven := htie (by rw [hat, abs_neg, abs_of_pos one_half_pos])
    have hN' : N = r + 1 := by
      have : (N : ℝ) = ((r + 1 : ℕ) : ℝ) := by push_cast; linarith
      exact Nat.cast_injective this
    omega

/-- Away from zero an integer is reached from above the integer before it on. -/
theorem Rounds.le_iff_of_away {m : RoundMode} {s : Bool} {y : ℝ} {r : ℕ} (h : Rounds m s y r) (ha : RoundsAway m s) (N : ℕ) :
    N ≤ r ↔ (N : ℝ) - 1 < y := by
  have habove := h.above ha
  have hnear := (abs_lt.1 h.near).2
  constructor
  · intro hle
    have : (N : ℝ) ≤ r := Nat.cast_le.2 hle
    linarith
  · intro hy
    have : (N : ℝ) < ((r + 1 : ℕ) : ℝ) := by push_cast; linarith
    exact Nat.lt_succ_iff.1 (Nat.cast_lt.1 this)

/-- Towards zero, or to the other side, an integer is reached from itself on. -/
theorem Rounds.le_iff_of_not_away {m : RoundMode} {s : Bool} {y : ℝ} {r : ℕ} (h : Rounds m s y r) (hm : m ≠ .rn)
    (ha : ¬RoundsAway m s) (N : ℕ) : N ≤ r ↔ (N : ℝ) ≤ y := by
  have hbelow := h.below hm ha
  have hnear := (abs_lt.1 h.near).1
  constructor
  · intro hle
    exact (Nat.cast_le.2 hle).trans hbelow
  · intro hy
    have : (N : ℝ) < ((r + 1 : ℕ) : ℝ) := by push_cast; linarith
    exact Nat.lt_succ_iff.1 (Nat.cast_lt.1 this)

/-- `RoundsUpTo` of a real magnitude, such as a square root: `p` bits of it, rounded, are not below `B`. -/
def RoundsUpToReal (f : Fmt) (m : RoundMode) (s : Bool) (B v : ℝ) : Prop :=
  (m = .rn → B * (1 - (2 : ℝ) ^ (-(f.p : ℤ) - 1)) ≤ v) ∧ (RoundsAway m s → B * (1 - (2 : ℝ) ^ (-(f.p : ℤ))) < v) ∧
    (m ≠ .rn → ¬RoundsAway m s → B ≤ v)

/-- It is `RoundsUpTo` where the magnitude is rational. -/
theorem roundsUpTo_iff (f : Fmt) (m : RoundMode) (s : Bool) (B v : ℚ) :
    RoundsUpTo f m s B v ↔ RoundsUpToReal f m s B v := by
  have hrn : B * (1 - (2 : ℚ) ^ (-(f.p : ℤ) - 1)) ≤ v ↔ (B : ℝ) * (1 - (2 : ℝ) ^ (-(f.p : ℤ) - 1)) ≤ v := by
    rw [← Rat.cast_le (K := ℝ)]
    push_cast
    rfl
  have haway : B * (1 - (2 : ℚ) ^ (-(f.p : ℤ))) < v ↔ (B : ℝ) * (1 - (2 : ℝ) ^ (-(f.p : ℤ))) < v := by
    rw [← Rat.cast_lt (K := ℝ)]
    push_cast
    rfl
  have hle : B ≤ v ↔ (B : ℝ) ≤ v := Rat.cast_le.symm
  unfold RoundsUpToReal
  rw [← hrn, ← haway, ← hle]
  cases m with
  | rn | rz => simp [RoundsUpTo, RoundsAway]
  | rd | ru => cases s <;> simp [RoundsUpTo, RoundsAway]

theorem ulp_pos_lt (f : Fmt) : 0 < (2 : ℝ) ^ (-(f.p : ℤ)) ∧ (2 : ℝ) ^ (-(f.p : ℤ)) < 1 / 2 ∧
    (2 : ℝ) ^ (-(f.p : ℤ) - 1) = (2 : ℝ) ^ (-(f.p : ℤ)) / 2 := by
  have hp := f.one_lt_p
  refine ⟨two_zpow_pos _, ?_, by rw [zpow_sub_one₀ two_ne_zero, div_eq_mul_inv]⟩
  have h : (2 : ℝ) ^ (-1 : ℤ) = 1 / 2 := by norm_num
  rw [← h]
  exact zpow_lt_zpow_right₀ one_lt_two (by omega)

theorem RoundsUpToReal.of_le {f : Fmt} {m : RoundMode} {s : Bool} {B v : ℝ} (hB : 0 < B) (h : B ≤ v) : RoundsUpToReal f m s B v := by
  obtain ⟨hu, -, hu'⟩ := ulp_pos_lt f
  refine ⟨fun _ => ?_, fun _ => ?_, fun _ _ => h⟩
  · rw [hu']
    nlinarith
  · nlinarith

/-- Up to the `p`-bit number next below the power of two nothing is rounded up to it. -/
theorem RoundsUpToReal.not_of_le {f : Fmt} {m : RoundMode} {s : Bool} {B v : ℝ} (hB : 0 < B)
    (h : v ≤ B * (1 - (2 : ℝ) ^ (-(f.p : ℤ)))) : ¬RoundsUpToReal f m s B v := by
  obtain ⟨hu, -, hu'⟩ := ulp_pos_lt f
  rintro ⟨hrn, haway, htoward⟩
  by_cases hm : m = .rn
  · have h1 := hrn hm
    rw [hu'] at h1
    nlinarith
  · by_cases ha : RoundsAway m s
    · exact absurd (haway ha) (not_lt.2 h)
    · nlinarith [htoward hm ha]

theorem RoundsUpToReal.lt_of_not {f : Fmt} {m : RoundMode} {s : Bool} {B v : ℝ} (hB : 0 < B) (h : ¬RoundsUpToReal f m s B v) :
    v < B := not_le.1 fun hle => h (.of_le hB hle)

/-- In units of a `p`-bit significand: the rounding reaches `2^p` exactly when it reaches that power of two. -/
theorem Rounds.two_pow_le_iff {f : Fmt} {m : RoundMode} {s : Bool} {v : ℝ} {k : ℤ} {r : ℕ} (h : Rounds m s (v / (2 : ℝ) ^ k) r) :
    2 ^ f.p ≤ r ↔ RoundsUpToReal f m s ((2 : ℝ) ^ (k + f.p)) v := by
  have hk := two_zpow_pos k
  obtain ⟨-, -, hu'⟩ := ulp_pos_lt f
  have hB : (2 : ℝ) ^ (k + f.p) = (2 : ℝ) ^ (f.p : ℤ) * (2 : ℝ) ^ k := by rw [add_comm, zpow_add₀ two_ne_zero]
  have hN : ((2 ^ f.p : ℕ) : ℝ) = (2 : ℝ) ^ (f.p : ℤ) := by push_cast; rw [zpow_natCast]
  have hmul : (2 : ℝ) ^ (f.p : ℤ) * (2 : ℝ) ^ (-(f.p : ℤ)) = 1 := by rw [← zpow_add₀ two_ne_zero, add_neg_cancel, zpow_zero]
  have haway : (2 : ℝ) ^ (k + f.p) * (1 - (2 : ℝ) ^ (-(f.p : ℤ))) = ((2 : ℝ) ^ (f.p : ℤ) - 1) * (2 : ℝ) ^ k := by
    rw [hB, mul_right_comm, mul_sub, mul_one, hmul]
  have hhalf : (2 : ℝ) ^ (k + f.p) * (1 - (2 : ℝ) ^ (-(f.p : ℤ) - 1)) = ((2 : ℝ) ^ (f.p : ℤ) - 1 / 2) * (2 : ℝ) ^ k := by
    rw [hB, mul_right_comm, mul_sub, mul_one, hu', mul_div_assoc', hmul]
  have heven : 2 ^ f.p % 2 = 0 := by cases f <;> rfl
  unfold RoundsUpToReal
  rw [haway, hhalf, ← le_div_iff₀ hk, ← lt_div_iff₀ hk]
  by_cases hm : m = .rn
  · subst hm
    have hnot : ¬RoundsAway .rn s := id
    rw [h.le_iff_of_nearest heven, hN]
    exact ⟨fun hle => ⟨fun _ => hle, fun ha => absurd ha hnot, fun hne => absurd rfl hne⟩, fun hall => hall.1 rfl⟩
  · by_cases ha : RoundsAway m s
    · rw [h.le_iff_of_away ha, hN]
      exact ⟨fun hlt => ⟨fun he => absurd he hm, fun _ => hlt, fun _ hna => absurd ha hna⟩, fun hall => hall.2.1 ha⟩
    · rw [h.le_iff_of_not_away hm ha, hN, le_div_iff₀ hk, ← hB]
      exact ⟨fun hle => ⟨fun he => absurd he hm, fun hna => absurd hna ha, fun _ _ => hle⟩, fun hall => hall.2.2 hm ha⟩

/-- Rounding to `p` bits of a number of a binade: between the binade's powers of two, both included. -/
theorem Rounds.bounds {m : RoundMode} {s : Bool} {v : ℝ} {k : ℤ} {r : ℕ} (h : Rounds m s (v / (2 : ℝ) ^ k) r) (n : ℕ) :
    (v < (2 : ℝ) ^ (k + n) → r ≤ 2 ^ n) ∧ ((2 : ℝ) ^ (k + n) ≤ v → 2 ^ n ≤ r) := by
  have hk := two_zpow_pos k
  obtain ⟨hlow, hhigh⟩ := abs_lt.1 h.near
  have hN : (2 : ℝ) ^ (k + n) / (2 : ℝ) ^ k = ((2 ^ n : ℕ) : ℝ) := by
    rw [zpow_add₀ two_ne_zero, mul_div_cancel_left₀ _ hk.ne', zpow_natCast]
    push_cast
    rfl
  constructor
  · intro hlt
    have hy : v / (2 : ℝ) ^ k < ((2 ^ n : ℕ) : ℝ) := hN ▸ div_lt_div_of_pos_right hlt hk
    have : (r : ℝ) < ((2 ^ n + 1 : ℕ) : ℝ) := by rw [Nat.cast_add_one]; linarith
    exact Nat.lt_succ_iff.1 (Nat.cast_lt.1 this)
  · intro hle
    have hy : ((2 ^ n : ℕ) : ℝ) ≤ v / (2 : ℝ) ^ k := hN ▸ div_le_div_of_nonneg_right hle hk.le
    have : ((2 ^ n : ℕ) : ℝ) < ((r + 1 : ℕ) : ℝ) := by rw [Nat.cast_add_one]; linarith
    exact Nat.lt_succ_iff.1 (Nat.cast_lt.1 this)

/-- A magnitude rounded to `p` bits with no bound on the exponent reaches a power of two exactly when `RoundsUpTo` says so (R62). -/
theorem reaches_rint {v : Mag} (h : v.Pos) (f : Fmt) (m : RoundMode) (s : Bool) (t : ℤ) :
    reaches (v.rint (v.log2 - f.p + 1) m s).1 (v.log2 - f.p + 1) t = true ↔ RoundsUpToReal f m s ((2 : ℝ) ^ t) v.real := by
  have hp := f.one_lt_p
  obtain ⟨hlow, hhigh⟩ := Mag.log2_spec h
  obtain ⟨hround, -⟩ := Mag.rint_spec h (v.log2 - f.p + 1) m s
  have hle := (hround.bounds f.p).1 (by rw [show v.log2 - f.p + 1 + f.p = v.log2 + 1 by ring]; exact hhigh)
  have hge := (hround.bounds (f.p - 1)).2 (by rw [f.cast_p_sub_one, show v.log2 - f.p + 1 + (f.p - 1) = v.log2 by ring]; exact hlow)
  have htop := hround.two_pow_le_iff (f := f)
  rw [show v.log2 - f.p + 1 + f.p = v.log2 + 1 by ring] at htop
  rw [reaches_iff]
  generalize (v.rint (v.log2 - f.p + 1) m s).1 = r at *
  have hk := two_zpow_pos (v.log2 - f.p + 1)
  have hle' : (r : ℝ) * (2 : ℝ) ^ (v.log2 - f.p + 1) ≤ (2 : ℝ) ^ (v.log2 + 1) := by
    have hr : (r : ℝ) ≤ (2 : ℝ) ^ (f.p : ℤ) := by exact_mod_cast hle
    calc (r : ℝ) * (2 : ℝ) ^ (v.log2 - f.p + 1) ≤ (2 : ℝ) ^ (f.p : ℤ) * (2 : ℝ) ^ (v.log2 - f.p + 1) :=
          mul_le_mul_of_nonneg_right hr hk.le
      _ = (2 : ℝ) ^ (v.log2 + 1) := by rw [← zpow_add₀ two_ne_zero]; congr 1; ring
  have hge' : (2 : ℝ) ^ v.log2 ≤ r * (2 : ℝ) ^ (v.log2 - f.p + 1) := by
    have hr : (2 : ℝ) ^ ((f.p - 1 : ℕ) : ℤ) ≤ r := by exact_mod_cast hge
    calc (2 : ℝ) ^ v.log2 = (2 : ℝ) ^ ((f.p - 1 : ℕ) : ℤ) * (2 : ℝ) ^ (v.log2 - f.p + 1) := by
          rw [← zpow_add₀ two_ne_zero, f.cast_p_sub_one]; congr 1; ring
      _ ≤ r * (2 : ℝ) ^ (v.log2 - f.p + 1) := mul_le_mul_of_nonneg_right hr hk.le
  obtain hbelow | rfl | habove : t ≤ v.log2 ∨ t = v.log2 + 1 ∨ v.log2 + 2 ≤ t := by omega
  · have hB : (2 : ℝ) ^ t ≤ (2 : ℝ) ^ v.log2 := zpow_le_zpow_right₀ one_le_two hbelow
    exact ⟨fun _ => .of_le (two_zpow_pos t) (hB.trans hlow), fun _ => hB.trans hge'⟩
  · rw [← htop]
    constructor
    · intro hreach
      have hpow : (2 : ℝ) ^ (v.log2 + 1) = (2 : ℝ) ^ (f.p : ℤ) * (2 : ℝ) ^ (v.log2 - f.p + 1) := by
        rw [← zpow_add₀ two_ne_zero]; congr 1; ring
      rw [hpow] at hreach
      exact_mod_cast le_of_mul_le_mul_right hreach hk
    · intro hr
      have hr' : (2 : ℝ) ^ (f.p : ℤ) ≤ r := by exact_mod_cast hr
      calc (2 : ℝ) ^ (v.log2 + 1) = (2 : ℝ) ^ (f.p : ℤ) * (2 : ℝ) ^ (v.log2 - f.p + 1) := by
            rw [← zpow_add₀ two_ne_zero]; congr 1; ring
        _ ≤ r * (2 : ℝ) ^ (v.log2 - f.p + 1) := mul_le_mul_of_nonneg_right hr' hk.le
  · have hB : 2 * (2 : ℝ) ^ (v.log2 + 1) ≤ (2 : ℝ) ^ t := by
      rw [← zpow_one_add₀ two_ne_zero]
      exact zpow_le_zpow_right₀ one_le_two (by omega)
    have hpos := two_zpow_pos (v.log2 + 1)
    have hnot : ¬RoundsUpToReal f m s ((2 : ℝ) ^ t) v.real := by
      obtain ⟨-, hu, -⟩ := ulp_pos_lt f
      exact RoundsUpToReal.not_of_le (two_zpow_pos t) (by nlinarith)
    exact ⟨fun hreach => absurd (hreach.trans hle') (by linarith), fun hup => absurd hup hnot⟩

/-! ### Overflow -/

/-- A rounding that reaches `2^(emax+1)` overflows; it is exact if the `p` bits are (R62, R63). -/
theorem roundPack_of_overflow {p : Params} {f : Fmt} {st : Status} {s : Bool} {v : Mag} (h : v.Pos)
    (hup : RoundsUpToReal f st.rc s ((2 : ℝ) ^ (f.emax + 1)) v.real) :
    roundPack p f st s v = overflow f st s (v.rint (v.log2 - f.p + 1) st.rc s).2 := by
  rw [roundPack_eq, if_pos ((reaches_rint h f st.rc s _).2 hup)]

theorem overflow_flags_OE (f : Fmt) (st : Status) (s exact : Bool) : (overflow f st s exact).flags.getLsbD 3 = true :=
  BitVec.getLsbD_or.trans (Bool.true_or _)

/-- `p` bits of a magnitude are exact when it is an integer of `p` bits times a power of two. -/
theorem rint_exact_iff {v : Mag} (h : v.Pos) (f : Fmt) (m : RoundMode) (s : Bool) :
    (v.rint (v.log2 - f.p + 1) m s).2 = true ↔ ∃ (n : ℕ) (k : ℤ), n < 2 ^ f.p ∧ v.real = n * (2 : ℝ) ^ k := by
  obtain ⟨hlow, hhigh⟩ := Mag.log2_spec h
  obtain ⟨hround, hexact⟩ := Mag.rint_spec h (v.log2 - f.p + 1) m s
  have hk := two_zpow_pos (v.log2 - f.p + 1)
  have hpow : (2 : ℝ) ^ (v.log2 + 1) = (2 : ℝ) ^ (f.p : ℤ) * (2 : ℝ) ^ (v.log2 - f.p + 1) := by
    rw [← zpow_add₀ two_ne_zero]; congr 1; ring
  rw [hexact, eq_div_iff hk.ne']
  constructor
  · intro hv
    refine ⟨_, _, ?_, hv.symm⟩
    rw [← hv, hpow] at hhigh
    exact_mod_cast lt_of_mul_lt_mul_right hhigh hk.le
  · rintro ⟨n, k, hn, hv⟩
    have hn' : (n : ℝ) < (2 : ℝ) ^ (f.p : ℤ) := by exact_mod_cast hn
    -- the unit of `n` is at least that of `p` bits, so the magnitude is an integer in the latter
    have hle : v.log2 - f.p + 1 ≤ k := by
      have : (2 : ℝ) ^ v.log2 < (2 : ℝ) ^ ((f.p : ℤ) + k) := by
        rw [zpow_add₀ two_ne_zero]
        exact (hlow.trans hv.le).trans_lt (mul_lt_mul_of_pos_right hn' (two_zpow_pos k))
      have := (zpow_lt_zpow_iff_right₀ one_lt_two).1 this
      omega
    obtain ⟨j, hj⟩ := Int.le.dest hle
    have hint : v.real / (2 : ℝ) ^ (v.log2 - f.p + 1) = ((n * 2 ^ j : ℕ) : ℝ) := by
      rw [div_eq_iff hk.ne', hv, ← hj, zpow_add₀ two_ne_zero, zpow_natCast]
      push_cast
      ring
    have hr := Rounds.eq_of_integral (hint ▸ hround)
    rw [hr, ← hint, div_mul_cancel₀ _ hk.ne']

/-! ### Tininess and flushing -/

/-- A result of the real magnitude is tiny (R64). -/
def TinyReal (p : Params) (f : Fmt) (m : RoundMode) (s : Bool) (v : ℝ) : Prop :=
  match p.tininess with
  | .after => ¬RoundsUpToReal f m s ((2 : ℝ) ^ f.emin) v
  | .before => v < (2 : ℝ) ^ f.emin

/-- It is `Tiny` where the magnitude is rational. -/
theorem tiny_iff (p : Params) (f : Fmt) (m : RoundMode) (s : Bool) (v : ℚ) : Tiny p f m s v ↔ TinyReal p f m s v := by
  unfold Tiny TinyReal
  cases p.tininess with
  | after => simpa using not_congr (roundsUpTo_iff f m s (2 ^ f.emin) v)
  | before =>
    simp only [← Rat.cast_lt (K := ℝ)]
    push_cast
    rfl

theorem roundTiny_iff {p : Params} {v : Mag} (h : v.Pos) (f : Fmt) (m : RoundMode) (s : Bool) :
    roundTiny p f m s v = true ↔ TinyReal p f m s v.real := by
  obtain ⟨hlow, hhigh⟩ := Mag.log2_spec h
  unfold roundTiny TinyReal
  cases p.tininess with
  | after => simp only [Bool.not_eq_true', ← Bool.not_eq_true, reaches_rint h]
  | before =>
    simp only [decide_eq_true_iff]
    constructor
    · intro hlt
      exact hhigh.trans_le (zpow_le_zpow_right₀ one_le_two hlt)
    · intro hlt
      exact (zpow_lt_zpow_iff_right₀ one_lt_two).1 (hlow.trans_lt hlt)

theorem TinyReal.lt {p : Params} {f : Fmt} {m : RoundMode} {s : Bool} {v : ℝ} (h : TinyReal p f m s v) : v < (2 : ℝ) ^ f.emin := by
  unfold TinyReal at h
  split at h
  · exact RoundsUpToReal.lt_of_not (two_zpow_pos _) h
  · exact h

/-- A magnitude not above the `p`-bit number next below `2^emin` is tiny by either parameter. -/
theorem tinyReal_of_le {p : Params} {f : Fmt} {m : RoundMode} {s : Bool} {v : ℝ}
    (h : v ≤ (2 : ℝ) ^ f.emin * (1 - (2 : ℝ) ^ (-(f.p : ℤ)))) : TinyReal p f m s v := by
  have hB := two_zpow_pos f.emin
  obtain ⟨hu, -, -⟩ := ulp_pos_lt f
  unfold TinyReal
  split
  · exact RoundsUpToReal.not_of_le hB h
  · nlinarith

/-- Under FTZ a tiny result that does not overflow is the zero of its sign (R64). -/
theorem roundPack_of_flushed {p : Params} {f : Fmt} {st : Status} {s : Bool} {v : Mag} (h : v.Pos)
    (hup : ¬RoundsUpToReal f st.rc s ((2 : ℝ) ^ (f.emax + 1)) v.real) (hftz : st.ftz = true)
    (htiny : TinyReal p f st.rc s v.real) : roundPack p f st s v = { val := zeroOf f s, flags := flagUE ||| flagPE } := by
  rw [roundPack_eq, if_neg (fun hr => hup ((reaches_rint h f st.rc s _).1 hr)), hftz, (roundTiny_iff h f st.rc s).2 htiny]
  rfl

/-- A result that is not tiny is rounded as without FTZ. -/
theorem roundPack_of_not_tiny {p : Params} {f : Fmt} {st : Status} {s : Bool} {v : Mag} (h : v.Pos)
    (htiny : ¬TinyReal p f st.rc s v.real) : roundPack p f st s v = roundPack p f { st with ftz := false } s v := by
  have hnot : roundTiny p f st.rc s v = false := by
    rw [← Bool.not_eq_true, roundTiny_iff h]
    exact htiny
  rw [roundPack_eq, roundPack_eq]
  simp only [hnot, Bool.and_false, Bool.false_and]
  rfl

/-! ### A result on the grid -/

/-- `x` is the magnitude `v` with the sign `s`, rounded to the integer `r` in units of `2^q`, the grid of the binade of `v` or of the
denormals (R62). -/
structure RoundedOn (f : Fmt) (m : RoundMode) (s : Bool) (v : ℝ) (x : BitVec f.w) (q : ℤ) (r : ℕ) : Prop where
  binade : q = f.grid ∨ (2 : ℝ) ^ (q + f.p - 1) ≤ v
  rounds : Rounds m s (v / (2 : ℝ) ^ q) r
  finite : isFinite f x = true
  sign : sign f x = s
  real : realOf f x = signFactor s * (r * (2 : ℚ) ^ q)
  even : r % 2 = 0 → frac f x % 2 = 0

/-- A result that neither overflows nor is flushed is rounded on the grid: PE when that is not exact, UE when it is tiny and PE is set
or UM is 0 (R62, R64). -/
theorem roundPack_of_rounded {p : Params} {f : Fmt} {st : Status} {s : Bool} {v : Mag} (h : v.Pos)
    (hup : ¬RoundsUpToReal f st.rc s ((2 : ℝ) ^ (f.emax + 1)) v.real) (hftz : st.ftz = false) :
    ∃ (q : ℤ) (r : ℕ) (exact : Bool), RoundedOn f st.rc s v.real (roundPack p f st s v).val q r ∧
      (exact = true ↔ (r : ℝ) * (2 : ℝ) ^ q = v.real) ∧
      (roundPack p f st s v).flags =
        flagIf (!exact) flagPE ||| flagIf (roundTiny p f st.rc s v && (!exact || !st.underflowMasked)) flagUE := by
  have hgrid : f.grid = f.emin - f.p + 1 := rfl
  have hemin : f.emin + 2 ≤ f.emax := by cases f <;> decide
  obtain ⟨hlow, hhigh⟩ := Mag.log2_spec h
  obtain ⟨hround, hexact⟩ := Mag.rint_spec h (max v.log2 f.emin - f.p + 1) st.rc s
  rw [roundPack_eq, if_neg (fun hr => hup ((reaches_rint h f st.rc s _).1 hr)), hftz, Bool.false_and, if_neg Bool.false_ne_true]
  have hq0 := two_zpow_pos (max v.log2 f.emin - f.p + 1)
  refine ⟨max v.log2 f.emin - f.p + 1, (v.rint (max v.log2 f.emin - f.p + 1) st.rc s).1,
    (v.rint (max v.log2 f.emin - f.p + 1) st.rc s).2, ?_, ?_, rfl⟩
  · have hbinade : max v.log2 f.emin - f.p + 1 = f.grid ∨ (2 : ℝ) ^ (max v.log2 f.emin - f.p + 1 + f.p - 1) ≤ v.real := by
      by_cases hle : v.log2 ≤ f.emin
      · left
        omega
      · right
        rw [max_eq_left (not_le.1 hle).le, show v.log2 - f.p + 1 + f.p - 1 = v.log2 by ring]
        exact hlow
    have hle := (hround.bounds f.p).1 (hhigh.trans_le (zpow_le_zpow_right₀ one_le_two (by omega)))
    have hnorm : 2 ^ (f.p - 1) ≤ (v.rint (max v.log2 f.emin - f.p + 1) st.rc s).1 ∨ max v.log2 f.emin - f.p + 1 = f.grid := by
      obtain hq | hq := hbinade
      · exact .inr hq
      · refine .inl ((hround.bounds (f.p - 1)).2 ?_)
        rw [f.cast_p_sub_one, ← add_sub_assoc]
        exact hq
    -- the result stays in range: on the denormals' grid by that grid's size, else since it does not reach `2^(emax+1)`
    have hmax : ((v.rint (max v.log2 f.emin - f.p + 1) st.rc s).1 : ℚ) * 2 ^ (max v.log2 f.emin - f.p + 1) <
        2 ^ (f.emax + 1) := by
      by_cases hlt : v.log2 < f.emin
      · have hr : ((v.rint (max v.log2 f.emin - f.p + 1) st.rc s).1 : ℚ) ≤ 2 ^ (f.p : ℤ) := by exact_mod_cast hle
        calc ((v.rint (max v.log2 f.emin - f.p + 1) st.rc s).1 : ℚ) * 2 ^ (max v.log2 f.emin - f.p + 1)
            ≤ 2 ^ (f.p : ℤ) * 2 ^ (max v.log2 f.emin - f.p + 1) := mul_le_mul_of_nonneg_right hr (zpow_two_pos _).le
          _ = 2 ^ ((f.p : ℤ) + (max v.log2 f.emin - f.p + 1)) := (zpow_add_two _ _).symm
          _ < 2 ^ (f.emax + 1) := zpow_lt_zpow_right₀ one_lt_two (by omega)
      · have hnot : ¬(2 : ℝ) ^ (f.emax + 1) ≤ (v.rint (v.log2 - f.p + 1) st.rc s).1 * (2 : ℝ) ^ (v.log2 - f.p + 1) := by
          rwa [← reaches_iff, reaches_rint h]
        rw [not_le] at hnot
        rw [max_eq_left (not_lt.1 hlt), ← Rat.cast_lt (K := ℝ)]
        push_cast
        exact hnot
    obtain ⟨hfin, hsign, hreal, heven⟩ := encodeReal_on_grid (f := f) (by omega) hle hnorm hmax s
    exact ⟨hbinade, hround, hfin, hsign, hreal, heven⟩
  · rw [hexact, eq_div_iff hq0.ne']

end Sys2Proof.Machine

/-!
PROOF. Correct rounding (spec/40_status_context.md R61 to R64): the result of `RoundPack_w` among the finite numbers of the format, its
overflow and its flags; and with it the sums, products, quotients, square roots and scalings (spec/43_elementwise.md,
spec/44_minmax_sqrt_scalef.md).
-/

namespace Sys2Proof.Machine

/-! ### Overflow -/

/-- The rational magnitude that a ratio stands for. -/
def ratioValue (n d : ℕ) (e : ℤ) : ℚ := (n : ℚ) / d * (2 : ℚ) ^ e

theorem Mag.real_ratio (n d : ℕ) (e : ℤ) : (Mag.ratio n d e).real = (ratioValue n d e : ℝ) := by
  rw [Mag.real, ratioValue]
  push_cast
  rfl

theorem ratioValue_pos {n d : ℕ} (hn : 0 < n) (hd : 0 < d) (e : ℤ) : 0 < ratioValue n d e :=
  mul_pos (div_pos (Nat.cast_pos.2 hn) (Nat.cast_pos.2 hd)) (zpow_two_pos e)

/-- OE is set exactly by a rounding that reaches `2^(emax+1)` (R62, R63). -/
theorem roundPack_flags_OE {p : Params} {f : Fmt} {st : Status} {s : Bool} {v : Mag} (h : v.Pos) :
    (roundPack p f st s v).flags.getLsbD 3 = true ↔ RoundsUpToReal f st.rc s ((2 : ℝ) ^ (f.emax + 1)) v.real := by
  have hP (c : Bool) : (flagIf c flagPE).getLsbD 3 = false := by cases c <;> rfl
  have hU (c : Bool) : (flagIf c flagUE).getLsbD 3 = false := by cases c <;> rfl
  by_cases hup : RoundsUpToReal f st.rc s ((2 : ℝ) ^ (f.emax + 1)) v.real
  · rw [roundPack_of_overflow h hup]
    exact iff_of_true (overflow_flags_OE f st s _) hup
  · refine iff_of_false ?_ hup
    rw [roundPack_eq, if_neg (fun hr => hup ((reaches_rint h f st.rc s _).1 hr))]
    split
    · simp [flagUE, flagPE]
    · rw [BitVec.getLsbD_or, hP, hU]
      exact Bool.false_ne_true

/-- The largest finite number, as a significand of `p` ones. -/
theorem realOf_maxFiniteOf (f : Fmt) :
    realOf f (maxFiniteOf f false) = (2 : ℚ) ^ (f.emax + 1) * (1 - (2 : ℚ) ^ (-(f.p : ℤ))) := by
  have hsig : IsSignificand f (f.emax - f.p + 1) (2 ^ f.p - 1) := by
    refine ⟨?_, ?_, .inl ?_, ?_⟩ <;> cases f <;> decide
  have hpat : maxFiniteOf f false =
      zeroOf f false ||| BitVec.ofNat f.w ((f.emax - f.p + 1 - f.grid).toNat * 2 ^ (f.p - 1) + (2 ^ f.p - 1)) := by
    cases f <;> rfl
  obtain ⟨-, hsign, hs, hu⟩ := fields_of_isSignificand hsig false
  have hcast : ((2 ^ f.p - 1 : ℕ) : ℚ) = 2 ^ (f.p : ℤ) - 1 := by
    rw [Nat.cast_sub Nat.one_le_two_pow]
    push_cast
    rw [zpow_natCast]
  have hsplit : (2 : ℚ) ^ (f.emax + 1) = 2 ^ (f.p : ℤ) * 2 ^ (f.emax - f.p + 1) := by
    rw [← zpow_add_two]
    congr 1
    ring
  have hinv : (2 : ℚ) ^ (f.p : ℤ) * 2 ^ (-(f.p : ℤ)) = 1 := by rw [← zpow_add_two, add_neg_cancel, zpow_zero]
  rw [hpat, realOf_eq, hsign, hs, hu, hcast, hsplit, signFactor_false, one_mul]
  linear_combination (2 : ℚ) ^ (f.emax - f.p + 1) * hinv

/-- Settles O54: an overflow is what a rounding that reaches `2^(emax+1)` gives, and no other rounding sets OE. -/
theorem overflowResult : Obligations.OverflowResult := by
  refine ⟨fun f st s exact => ⟨?_, ?_, ?_, ?_⟩, fun p f st s n d e hn hd => ?_⟩
  · have hc : (st.overflowMasked || !exact) = decide (st.masks.getLsbD 3 = true ∨ exact = false) := by
      unfold Status.overflowMasked
      cases st.masks.getLsbD 3 <;> cases exact <;> rfl
    simp only [overflow, hc, flagIf, decide_eq_true_eq]
  · cases hrc : st.rc <;> cases s <;> simp [overflow, hrc]
  · cases s <;> rfl
  · cases s <;> rfl
  · have hpos : (Mag.ratio n d e).Pos := ⟨hn, hd⟩
    have hreal := Mag.real_ratio n d e
    have hB : ((2 : ℝ) ^ (f.emax + 1)) = (((2 : ℚ) ^ (f.emax + 1) : ℚ) : ℝ) := by push_cast; rfl
    have hup : RoundsUpTo f st.rc s ((2 : ℚ) ^ (f.emax + 1)) (ratioValue n d e) ↔
        RoundsUpToReal f st.rc s ((2 : ℝ) ^ (f.emax + 1)) (Mag.ratio n d e).real := by
      rw [roundsUpTo_iff, hreal, hB]
    have hOE : ¬RoundsUpToReal f st.rc s ((2 : ℝ) ^ (f.emax + 1)) (Mag.ratio n d e).real →
        (roundPack p f st s (.ratio n d e)).flags.getLsbD 3 = false := fun hnot => by
      rw [← Bool.not_eq_true, roundPack_flags_OE hpos]
      exact hnot
    refine ⟨fun h => ⟨_, roundPack_of_overflow hpos (hup.1 h), ?_⟩, fun h => hOE (mt hup.2 h),
      fun h => ⟨_, roundPack_of_overflow hpos (.of_le (two_zpow_pos _) ?_)⟩, fun h => hOE (RoundsUpToReal.not_of_le (two_zpow_pos _) ?_)⟩
    · rw [rint_exact_iff hpos f, hreal]
      refine exists_congr fun m => exists_congr fun k => and_congr_right fun _ => ?_
      change _ ↔ ratioValue n d e = _
      rw [← Rat.cast_inj (α := ℝ)]
      push_cast
      rfl
    · rw [hreal, hB]
      exact Rat.cast_le.2 h
    · have hle : ratioValue n d e ≤ (2 : ℚ) ^ (f.emax + 1) * (1 - (2 : ℚ) ^ (-(f.p : ℤ))) := realOf_maxFiniteOf f ▸ h
      have h' := Rat.cast_le (K := ℝ).2 hle
      rw [hreal]
      push_cast at h' ⊢
      exact h'

/-! ### The finite numbers around a magnitude -/

/-- The magnitude of a finite number, as a real number. -/
noncomputable def absReal (f : Fmt) (y : BitVec f.w) : ℝ := |((realOf f y : ℚ) : ℝ)|

theorem absReal_eq (f : Fmt) (y : BitVec f.w) : absReal f y = (sig f y : ℝ) * (2 : ℝ) ^ unitExp f y := by
  rw [absReal, ← Rat.cast_abs, abs_realOf]
  push_cast
  rfl

section Grid

variable {f : Fmt} {m : RoundMode} {s : Bool} {v : ℝ} {x : BitVec f.w} {q : ℤ} {r : ℕ}

/-- A number of the format is on the grid of a magnitude's binade, or it lies below the binade and its magnitude. -/
theorem multiple_or_below (hb : q = f.grid ∨ (2 : ℝ) ^ (q + f.p - 1) ≤ v) (y : BitVec f.w) :
    (∃ n : ℕ, absReal f y = n * (2 : ℝ) ^ q) ∨
      absReal f y < (2 ^ (f.p - 1) : ℕ) * (2 : ℝ) ^ q ∧ (2 ^ (f.p - 1) : ℕ) * (2 : ℝ) ^ q ≤ v := by
  have hpow : ((2 ^ (f.p - 1) : ℕ) : ℝ) * (2 : ℝ) ^ q = (2 : ℝ) ^ (q + f.p - 1) := by
    push_cast
    rw [← zpow_natCast, ← zpow_add₀ two_ne_zero, f.cast_p_sub_one]
    congr 1
    ring
  rw [absReal_eq, hpow]
  by_cases hu : q ≤ unitExp f y
  · left
    obtain ⟨j, hj⟩ := Int.le.dest hu
    refine ⟨sig f y * 2 ^ j, ?_⟩
    rw [← hj, zpow_add₀ two_ne_zero, zpow_natCast]
    push_cast
    ring
  · right
    have hgrid := grid_le_unitExp f y
    refine ⟨?_, hb.resolve_left (by omega)⟩
    have hsig : (sig f y : ℝ) < (2 : ℝ) ^ (f.p : ℤ) := by exact_mod_cast sig_lt f y
    calc (sig f y : ℝ) * (2 : ℝ) ^ unitExp f y < (2 : ℝ) ^ (f.p : ℤ) * (2 : ℝ) ^ unitExp f y :=
          mul_lt_mul_of_pos_right hsig (two_zpow_pos _)
      _ = (2 : ℝ) ^ ((f.p : ℤ) + unitExp f y) := (zpow_add₀ two_ne_zero _ _).symm
      _ ≤ (2 : ℝ) ^ (q + f.p - 1) := zpow_le_zpow_right₀ one_le_two (by omega)

/-- A number of the format up to the magnitude lies under a multiple of the grid's unit that is. -/
theorem exists_multiple_above (hb : q = f.grid ∨ (2 : ℝ) ^ (q + f.p - 1) ≤ v) {y : BitVec f.w}
    (hy : absReal f y ≤ v) : ∃ n : ℕ, absReal f y ≤ n * (2 : ℝ) ^ q ∧ n * (2 : ℝ) ^ q ≤ v := by
  obtain ⟨n, hn⟩ | ⟨hlt, hle⟩ := multiple_or_below hb y
  · exact ⟨n, hn.le, hn ▸ hy⟩
  · exact ⟨_, hlt.le, hle⟩

/-- A number of the format from the magnitude on is a multiple of the grid's unit. -/
theorem exists_multiple_eq (hb : q = f.grid ∨ (2 : ℝ) ^ (q + f.p - 1) ≤ v) {y : BitVec f.w}
    (hy : v ≤ absReal f y) : ∃ n : ℕ, absReal f y = n * (2 : ℝ) ^ q := by
  obtain hn | ⟨hlt, hle⟩ := multiple_or_below hb y
  · exact hn
  · exact absurd (hle.trans hy) (not_le.2 hlt)

namespace RoundedOn

variable (h : RoundedOn f m s v x q r)

include h

theorem absReal_result : absReal f x = r * (2 : ℝ) ^ q := by
  rw [absReal, h.real, ← Rat.cast_abs, abs_mul, abs_signFactor, one_mul, abs_of_nonneg (mul_nonneg r.cast_nonneg (zpow_two_pos q).le)]
  push_cast
  rfl

/-- No number of the format lies between the magnitude and a result below it. -/
theorem le_result {y : BitVec f.w} (hy : absReal f y ≤ v) : absReal f y ≤ r * (2 : ℝ) ^ q := by
  obtain ⟨n, hn, hnv⟩ := exists_multiple_above h.binade hy
  have hq := two_zpow_pos q
  have hnear := (abs_lt.1 h.rounds.near).1
  have hlt : (n : ℝ) < ((r + 1 : ℕ) : ℝ) := by
    have := (le_div_iff₀ hq).2 hnv
    push_cast
    linarith
  have hnr : (n : ℝ) ≤ r := Nat.cast_le.2 (Nat.lt_succ_iff.1 (Nat.cast_lt.1 hlt))
  exact hn.trans (mul_le_mul_of_nonneg_right hnr hq.le)

/-- No number of the format lies between the magnitude and a result above it. -/
theorem result_le {y : BitVec f.w} (hy : v ≤ absReal f y) : r * (2 : ℝ) ^ q ≤ absReal f y := by
  obtain ⟨n, hn⟩ := exists_multiple_eq h.binade hy
  have hq := two_zpow_pos q
  have hnear := (abs_lt.1 h.rounds.near).2
  have hlt : (r : ℝ) < ((n + 1 : ℕ) : ℝ) := by
    have := (div_le_iff₀ hq).2 (hn ▸ hy)
    push_cast
    linarith
  have hrn : (r : ℝ) ≤ n := Nat.cast_le.2 (Nat.lt_succ_iff.1 (Nat.cast_lt.1 hlt))
  rw [hn]
  exact mul_le_mul_of_nonneg_right hrn hq.le

/-- To nearest no multiple of the unit is nearer, and another one as near leaves the result even. -/
theorem nearest_multiple (hm : m = .rn) (n : ℕ) :
    |r * (2 : ℝ) ^ q - v| ≤ |n * (2 : ℝ) ^ q - v| ∧ (|r * (2 : ℝ) ^ q - v| = |n * (2 : ℝ) ^ q - v| → n ≠ r → r % 2 = 0) := by
  obtain ⟨hhalf, htie⟩ := h.rounds.nearest hm
  have hq := two_zpow_pos q
  have hscale (k : ℕ) : |k * (2 : ℝ) ^ q - v| = |(k : ℝ) - v / (2 : ℝ) ^ q| * (2 : ℝ) ^ q := by
    rw [← abs_of_pos hq, ← abs_mul, abs_of_pos hq, sub_mul, div_mul_cancel₀ _ hq.ne']
  rw [hscale, hscale, mul_le_mul_iff_left₀ hq, mul_left_inj' hq.ne']
  by_cases hn : n = r
  · subst hn
    exact ⟨le_rfl, fun _ hne => absurd rfl hne⟩
  · have hsep : (1 : ℝ) ≤ |(n : ℝ) - r| := by
      have : (1 : ℤ) ≤ |(n : ℤ) - r| := Int.one_le_abs (by omega)
      exact_mod_cast this
    have htri : |(n : ℝ) - r| ≤ |(n : ℝ) - v / (2 : ℝ) ^ q| + |(r : ℝ) - v / (2 : ℝ) ^ q| := by
      rw [abs_sub_comm (r : ℝ)]
      exact abs_sub_le _ _ _
    exact ⟨by linarith, fun heq _ => htie (by linarith)⟩

/-- To nearest no magnitude of a number of the format is nearer, and another one as near leaves the result even. -/
theorem nearest_abs (hm : m = .rn) (y : BitVec f.w) :
    |r * (2 : ℝ) ^ q - v| ≤ |absReal f y - v| ∧
      (|r * (2 : ℝ) ^ q - v| = |absReal f y - v| → absReal f y ≠ r * (2 : ℝ) ^ q → r % 2 = 0) := by
  obtain hle | hge := le_total (absReal f y) v
  · obtain ⟨n, hyn, hnv⟩ := exists_multiple_above h.binade hle
    obtain ⟨hnear, htie⟩ := h.nearest_multiple hm n
    have hy : |absReal f y - v| = v - absReal f y := by rw [abs_sub_comm, abs_of_nonneg (by linarith)]
    have hn : |n * (2 : ℝ) ^ q - v| = v - n * (2 : ℝ) ^ q := by rw [abs_sub_comm, abs_of_nonneg (by linarith)]
    rw [hy]
    rw [hn] at hnear htie
    refine ⟨by linarith, fun heq hne => htie (by linarith) fun hnr => hne ?_⟩
    rw [← hnr]
    linarith
  · obtain ⟨n, hyn⟩ := exists_multiple_eq h.binade hge
    rw [hyn]
    obtain ⟨hnear, htie⟩ := h.nearest_multiple hm n
    exact ⟨hnear, fun heq hne => htie heq fun hnr => hne (by rw [hnr])⟩

/-- The result and the exact number, with their sign. -/
theorem real_eq : ((realOf f x : ℚ) : ℝ) = (signFactor s : ℝ) * (r * (2 : ℝ) ^ q) := by
  rw [h.real]
  push_cast
  rfl

/-- Rounding to nearest: no number of the format is nearer, and another one as near leaves the fraction even (R61, R62). -/
theorem nearest (hm : m = .rn) (hv : 0 < v) (y : BitVec f.w) :
    |((realOf f x : ℚ) : ℝ) - signFactor s * v| ≤ |((realOf f y : ℚ) : ℝ) - signFactor s * v| ∧
      (|((realOf f x : ℚ) : ℝ) - signFactor s * v| = |((realOf f y : ℚ) : ℝ) - signFactor s * v| →
        realOf f y ≠ realOf f x → frac f x % 2 = 0) := by
  obtain ⟨hnear, htie⟩ := h.nearest_abs hm y
  have hσ : |(signFactor s : ℝ)| = 1 := by cases s <;> simp
  have hx : |((realOf f x : ℚ) : ℝ) - signFactor s * v| = |r * (2 : ℝ) ^ q - v| := by
    rw [h.real_eq, ← mul_sub, abs_mul, hσ, one_mul]
  have hy : |absReal f y - v| ≤ |((realOf f y : ℚ) : ℝ) - signFactor s * v| := by
    have := abs_abs_sub_abs_le ((realOf f y : ℚ) : ℝ) (signFactor s * v)
    rwa [abs_mul, hσ, one_mul, abs_of_pos hv] at this
  rw [hx]
  refine ⟨hnear.trans hy, fun heq hne => ?_⟩
  have heq' : |r * (2 : ℝ) ^ q - v| = |absReal f y - v| := le_antisymm hnear (hy.trans heq.ge)
  by_cases habs : absReal f y = r * (2 : ℝ) ^ q
  · -- the same magnitude with the other sign is not as near, unless both are zero
    exfalso
    have hsigns : ((realOf f y : ℚ) : ℝ) = -((realOf f x : ℚ) : ℝ) := by
      have : absReal f y = absReal f x := habs.trans h.absReal_result.symm
      refine (abs_eq_abs.1 this).resolve_left fun he => hne ?_
      exact_mod_cast he
    have hr : 0 ≤ (r : ℝ) * (2 : ℝ) ^ q := mul_nonneg r.cast_nonneg (two_zpow_pos q).le
    have hfar : |((realOf f y : ℚ) : ℝ) - signFactor s * v| = r * (2 : ℝ) ^ q + v := by
      rw [hsigns, h.real_eq, ← mul_neg, ← mul_sub, abs_mul, hσ, one_mul, abs_of_nonpos (by linarith)]
      ring
    rw [hfar] at heq
    have hr0 : (r : ℝ) * (2 : ℝ) ^ q = 0 := by
      obtain hc | hc := abs_cases ((r : ℝ) * (2 : ℝ) ^ q - v) <;> linarith
    refine hne ?_
    have hx0 : ((realOf f x : ℚ) : ℝ) = 0 := by rw [h.real_eq, hr0, mul_zero]
    have hy0 : ((realOf f y : ℚ) : ℝ) = 0 := by rw [hsigns, hx0, neg_zero]
    exact_mod_cast hy0.trans hx0.symm
  · exact h.even (htie heq' habs)

/-- The result under the mode's side (R61). -/
theorem result_le_of_not_away (hm : m ≠ .rn) (ha : ¬RoundsAway m s) : r * (2 : ℝ) ^ q ≤ v :=
  (le_div_iff₀ (two_zpow_pos q)).1 (h.rounds.below hm ha)

theorem le_result_of_away (ha : RoundsAway m s) : v ≤ r * (2 : ℝ) ^ q :=
  (div_le_iff₀ (two_zpow_pos q)).1 (h.rounds.above ha)

/-- On the positive side no number of the format, or one with its sign inverted, lies between the magnitude and the result. -/
theorem signed_between (hv : 0 < v) {y : BitVec f.w} {t : ℝ} (ht : |t| = absReal f y) :
    (t ≤ v → t ≤ r * (2 : ℝ) ^ q) ∧ (v ≤ t → r * (2 : ℝ) ^ q ≤ t) := by
  constructor
  · intro htv
    obtain hneg | hpos := le_total t 0
    · exact hneg.trans (mul_nonneg r.cast_nonneg (two_zpow_pos q).le)
    · have habs : absReal f y = t := ht.symm.trans (abs_of_nonneg hpos)
      exact habs ▸ h.le_result (habs.le.trans htv)
  · intro hvt
    have habs : absReal f y = t := ht.symm.trans (abs_of_pos (hv.trans_le hvt))
    exact habs ▸ h.result_le (hvt.trans habs.ge)

/-- Rounding down: the greatest number of the format not above the exact one. -/
theorem down (hm : m = .rd) (hv : 0 < v) :
    ((realOf f x : ℚ) : ℝ) ≤ signFactor s * v ∧
      ∀ y : BitVec f.w, ((realOf f y : ℚ) : ℝ) ≤ signFactor s * v → ((realOf f y : ℚ) : ℝ) ≤ (realOf f x : ℚ) := by
  subst hm
  rw [h.real_eq]
  cases s with
  | false =>
    simp only [signFactor_false, Rat.cast_one, one_mul]
    exact ⟨h.result_le_of_not_away nofun id, fun y => (h.signed_between hv rfl).1⟩
  | true =>
    simp only [signFactor_true, Rat.cast_neg, Rat.cast_one, neg_mul, one_mul]
    refine ⟨neg_le_neg (h.le_result_of_away trivial), fun y hy => ?_⟩
    exact le_neg.1 ((h.signed_between hv (abs_neg _)).2 (le_neg.1 hy))

/-- Rounding up: the least number of the format not below the exact one. -/
theorem up (hm : m = .ru) (hv : 0 < v) :
    signFactor s * v ≤ ((realOf f x : ℚ) : ℝ) ∧
      ∀ y : BitVec f.w, signFactor s * v ≤ ((realOf f y : ℚ) : ℝ) → ((realOf f x : ℚ) : ℝ) ≤ (realOf f y : ℚ) := by
  subst hm
  rw [h.real_eq]
  cases s with
  | false =>
    simp only [signFactor_false, Rat.cast_one, one_mul]
    exact ⟨h.le_result_of_away trivial, fun y => (h.signed_between hv rfl).2⟩
  | true =>
    simp only [signFactor_true, Rat.cast_neg, Rat.cast_one, neg_mul, one_mul]
    refine ⟨neg_le_neg (h.result_le_of_not_away nofun id), fun y hy => ?_⟩
    exact neg_le.1 ((h.signed_between hv (abs_neg _)).1 (neg_le.1 hy))

/-- Rounding toward zero: the greatest magnitude of a number of the format not above the exact one. -/
theorem toward_zero (hm : m = .rz) :
    absReal f x ≤ v ∧ ∀ y : BitVec f.w, absReal f y ≤ v → absReal f y ≤ absReal f x := by
  subst hm
  rw [h.absReal_result]
  exact ⟨h.result_le_of_not_away nofun (by cases s <;> exact id), fun y hy => h.le_result hy⟩

/-- The result is the exact number when the integer is exact. -/
theorem exact_iff : ((realOf f x : ℚ) : ℝ) = signFactor s * v ↔ r * (2 : ℝ) ^ q = v := by
  have hσ : (signFactor s : ℝ) ≠ 0 := Rat.cast_ne_zero.2 (signFactor_ne_zero s)
  rw [h.real_eq, mul_right_inj' hσ]

end RoundedOn

end Grid

/-! ### The statements about a rounding -/

/-- A rounding of a ratio that sets no OE, without FTZ, is on the grid. -/
theorem roundPack_ratio_rounded {p : Params} {f : Fmt} {st : Status} {s : Bool} {n d : ℕ} {e : ℤ} (hn : 0 < n) (hd : 0 < d)
    (hftz : st.ftz = false) (hOE : (roundPack p f st s (.ratio n d e)).flags.getLsbD 3 = false) :
    ∃ (q : ℤ) (r : ℕ) (exact : Bool),
      RoundedOn f st.rc s (ratioValue n d e) (roundPack p f st s (.ratio n d e)).val q r ∧
      (exact = true ↔ (r : ℝ) * (2 : ℝ) ^ q = ratioValue n d e) ∧
      (roundPack p f st s (.ratio n d e)).flags =
        flagIf (!exact) flagPE ||| flagIf (roundTiny p f st.rc s (.ratio n d e) && (!exact || !st.underflowMasked)) flagUE := by
  have hpos : (Mag.ratio n d e).Pos := ⟨hn, hd⟩
  rw [← Mag.real_ratio]
  refine roundPack_of_rounded hpos (fun hup => ?_) hftz
  rw [← roundPack_flags_OE (p := p) hpos, hOE] at hup
  exact Bool.false_ne_true hup

/-- To nearest such a rounding is correct (R61, R62). -/
theorem roundPack_nearest {p : Params} {f : Fmt} {st : Status} {s : Bool} {n d : ℕ} {e : ℤ} (hn : 0 < n) (hd : 0 < d)
    (hrc : st.rc = .rn) (hftz : st.ftz = false) (hOE : (roundPack p f st s (.ratio n d e)).flags.getLsbD 3 = false) :
    let r := (roundPack p f st s (.ratio n d e)).val
    let x := signFactor s * ratioValue n d e
    isFinite f r = true ∧ sign f r = s ∧ ∀ y : BitVec f.w, |realOf f r - x| ≤ |realOf f y - x| ∧
      (|realOf f r - x| = |realOf f y - x| → realOf f y ≠ realOf f r → frac f r % 2 = 0) := by
  obtain ⟨q, r, -, hr, -⟩ := roundPack_ratio_rounded hn hd hftz hOE
  refine ⟨hr.finite, hr.sign, fun y => ?_⟩
  have hnear := hr.nearest hrc (Rat.cast_pos.2 (ratioValue_pos hn hd e)) y
  exact_mod_cast hnear

/-- Settles O55: the result is on the grid of the magnitude, where it is the nearest. -/
theorem roundPackIsNearest : Obligations.RoundPackIsNearest := by
  intro p f st s n d e hn hd hrc hftz hOE
  obtain ⟨hfin, hsign, hnear⟩ := roundPack_nearest hn hd hrc hftz hOE
  exact ⟨hfin, hsign, fun y _ => hnear y⟩

/-- A directed rounding of a ratio is correct (R61, R62). -/
theorem roundPack_directed {p : Params} {f : Fmt} {st : Status} {s : Bool} {n d : ℕ} {e : ℤ} (hn : 0 < n) (hd : 0 < d)
    (hftz : st.ftz = false) (hOE : (roundPack p f st s (.ratio n d e)).flags.getLsbD 3 = false) :
    let r := (roundPack p f st s (.ratio n d e)).val
    let x := signFactor s * ratioValue n d e
    isFinite f r = true ∧ sign f r = s ∧
      (st.rc = .rd → realOf f r ≤ x ∧ ∀ y : BitVec f.w, realOf f y ≤ x → realOf f y ≤ realOf f r) ∧
      (st.rc = .ru → x ≤ realOf f r ∧ ∀ y : BitVec f.w, x ≤ realOf f y → realOf f r ≤ realOf f y) ∧
      (st.rc = .rz → |realOf f r| ≤ |x| ∧ ∀ y : BitVec f.w, |realOf f y| ≤ |x| → |realOf f y| ≤ |realOf f r|) := by
  obtain ⟨q, r, -, hr, -⟩ := roundPack_ratio_rounded hn hd hftz hOE
  have hpos := ratioValue_pos hn hd e
  have hpos' : (0 : ℝ) < ratioValue n d e := Rat.cast_pos.2 hpos
  refine ⟨hr.finite, hr.sign, fun hrc => ?_, fun hrc => ?_, fun hrc => ?_⟩
  · exact_mod_cast hr.down hrc hpos'
  · exact_mod_cast hr.up hrc hpos'
  · have hx : |signFactor s * ratioValue n d e| = ratioValue n d e := by
      rw [abs_mul, abs_signFactor, one_mul, abs_of_pos hpos]
    rw [hx]
    have hz := hr.toward_zero hrc
    unfold absReal at hz
    exact_mod_cast hz

/-- Settles O56: the result is on the grid of the magnitude, on the side of it that the mode and the sign say. -/
theorem roundPackIsDirected : Obligations.RoundPackIsDirected := by
  intro p f st s n d e hn hd hftz hOE
  obtain ⟨hfin, hsign, hdown, hup, hzero⟩ := roundPack_directed hn hd hftz hOE
  exact ⟨hfin, hsign, fun hrc => ⟨(hdown hrc).1, fun y _ => (hdown hrc).2 y⟩, fun hrc => ⟨(hup hrc).1, fun y _ => (hup hrc).2 y⟩,
    fun hrc => ⟨(hzero hrc).1, fun y _ => (hzero hrc).2 y⟩⟩

theorem getLsbD_flagIf_PE_or_UE (a b : Bool) :
    (flagIf a flagPE ||| flagIf b flagUE).getLsbD 5 = a ∧ (flagIf a flagPE ||| flagIf b flagUE).getLsbD 4 = b ∧
      (flagIf a flagPE ||| flagIf b flagUE) &&& 0b001111 = 0 := by
  cases a <;> cases b <;> decide

/-- The power of two `2^emin`, and the number next below it, as real numbers. -/
theorem cast_below_emin (f : Fmt) :
    (((2 : ℚ) ^ f.emin * (1 - (2 : ℚ) ^ (-(f.p : ℤ))) : ℚ) : ℝ) = (2 : ℝ) ^ f.emin * (1 - (2 : ℝ) ^ (-(f.p : ℤ))) := by
  push_cast
  rfl

/-- Settles O57: on the grid PE says that the integer is not exact, and UE is read off the model's test of tininess. -/
theorem roundPackFlags : Obligations.RoundPackFlags := by
  intro p f st s n d e hn hd hftz hOE
  obtain ⟨q, r, exact, hr, hexact, hflags⟩ := roundPack_ratio_rounded hn hd hftz hOE
  have hreal : realOf f (roundPack p f st s (.ratio n d e)).val ≠ signFactor s * ratioValue n d e ↔ (!exact) = true := by
    rw [Bool.not_eq_true', ← Bool.not_eq_true, hexact, ← hr.exact_iff]
    exact not_congr (by exact_mod_cast Iff.rfl)
  have htiny : roundTiny p f st.rc s (.ratio n d e) = true ↔ Tiny p f st.rc s (ratioValue n d e) := by
    rw [roundTiny_iff (v := .ratio n d e) ⟨hn, hd⟩, tiny_iff, Mag.real_ratio]
  obtain ⟨hPE, hUE, hrest⟩ := getLsbD_flagIf_PE_or_UE (!exact)
    (roundTiny p f st.rc s (.ratio n d e) && (!exact || !st.underflowMasked))
  have hue : (roundPack p f st s (.ratio n d e)).flags.getLsbD 4 = true ↔
      Tiny p f st.rc s (ratioValue n d e) ∧
        (realOf f (roundPack p f st s (.ratio n d e)).val ≠ signFactor s * ratioValue n d e ∨ st.masks.getLsbD 4 = false) := by
    rw [hflags, hUE, Bool.and_eq_true, Bool.or_eq_true, htiny, hreal, Bool.not_eq_true' st.underflowMasked]
    rfl
  refine ⟨?_, hue, fun hle hor => hue.2 ⟨?_, hor⟩, fun h => ?_, hflags ▸ hrest⟩
  · rw [hflags, hPE]
    exact hreal.symm
  · rw [tiny_iff]
    refine tinyReal_of_le ?_
    rw [← cast_below_emin]
    exact Rat.cast_le.2 hle
  · have hlt := ((tiny_iff _ _ _ _ _).1 (hue.1 h).1).lt
    refine (Rat.cast_lt (K := ℝ) (p := ratioValue n d e)).1 ?_
    push_cast
    exact hlt

/-- Settles O58: a magnitude next below `2^emin` or under it is tiny and no overflow, one from `2^emin` on is not tiny. -/
theorem flushToZero : Obligations.FlushToZero := by
  intro p f st s n d e hn hd hftz
  have hpos : (Mag.ratio n d e).Pos := ⟨hn, hd⟩
  have hreal := Mag.real_ratio n d e
  refine ⟨fun hle => ?_, fun hge => ?_⟩
  · have hle' : (Mag.ratio n d e).real ≤ (2 : ℝ) ^ f.emin * (1 - (2 : ℝ) ^ (-(f.p : ℤ))) := by
      rw [hreal, ← cast_below_emin]
      exact Rat.cast_le.2 hle
    refine roundPack_of_flushed hpos (RoundsUpToReal.not_of_le (two_zpow_pos _) (hle'.trans ?_)) hftz (tinyReal_of_le hle')
    obtain ⟨-, hu, -⟩ := ulp_pos_lt f
    have hemin : f.emin ≤ f.emax + 1 := by cases f <;> decide
    exact mul_le_mul_of_nonneg_right (zpow_le_zpow_right₀ one_le_two hemin) (by linarith)
  · refine roundPack_of_not_tiny hpos fun htiny => ?_
    have hge' : ((2 : ℝ) ^ f.emin) ≤ (Mag.ratio n d e).real := by
      have hge' := (Rat.cast_le (K := ℝ) (q := ratioValue n d e)).2 hge
      push_cast at hge'
      exact hreal ▸ hge'
    exact absurd htiny.lt (not_lt.2 hge')

/-! ### Sums, products and quotients -/

/-- The result is a finite number, and no number of the format is nearer to the exact one. -/
def IsNearest (f : Fmt) (r : BitVec f.w) (x : ℚ) : Prop :=
  isFinite f r = true ∧ ∀ y : BitVec f.w, isFinite f y = true → |realOf f r - x| ≤ |realOf f y - x|

/-- An exact result is the nearest. -/
theorem isNearest_self {f : Fmt} {r : BitVec f.w} {x : ℚ} (hfin : isFinite f r = true) (hx : realOf f r = x) : IsNearest f r x :=
  ⟨hfin, fun y _ => by rw [hx, sub_self, abs_zero]; exact abs_nonneg _⟩

/-- A rounding that sets no OE beside the flags already set gives the nearest number. -/
theorem isNearest_roundPackWith {p : Params} {f : Fmt} {st : Status} {fl : FlagSet} {s : Bool} {n d : ℕ} {e : ℤ} {x : ℚ}
    (hn : 0 < n) (hd : 0 < d) (hrc : st.rc = .rn) (hftz : st.ftz = false) (hx : signFactor s * ratioValue n d e = x)
    (hOE : (roundPackWith p f st fl s (.ratio n d e)).flags.getLsbD 3 = false) :
    IsNearest f (roundPackWith p f st fl s (.ratio n d e)).val x := by
  have hOE' : (fl.getLsbD 3 || (roundPack p f st s (.ratio n d e)).flags.getLsbD 3) = false := BitVec.getLsbD_or.symm.trans hOE
  obtain ⟨hfin, -, hnear⟩ := roundPack_nearest hn hd hrc hftz (Bool.or_eq_false_iff.1 hOE').2
  exact ⟨hfin, fun y _ => hx ▸ (hnear y).1⟩

section Arithmetic

variable {p : Params} {f : Fmt} {st : Status} {a b : BitVec f.w}

theorem sig_pos_of_not_isZero {x : BitVec f.w} (h : isZero f x = false) : 0 < sig f x :=
  Nat.pos_of_ne_zero fun h0 => Bool.false_ne_true (h.symm.trans ((sig_eq_zero_iff f x).1 h0))

theorem addW_isNearest (ha : isFinite f a = true) (hb : isFinite f b = true) (hdaz : st.daz = false) (hftz : st.ftz = false)
    (hrc : st.rc = .rn) (hOE : (addW p f st a b).flags.getLsbD 3 = false) :
    IsNearest f (addW p f st a b).val (realOf f a + realOf f b) := by
  have hsum : realOf f a + realOf f b = ((scaled f a + scaled f b : ℤ) : ℚ) * 2 ^ f.grid := by
    rw [realOf_eq_scaled, realOf_eq_scaled]
    push_cast
    ring
  have hadd : addW p f st a b = addNumbers p f st a b := by
    simp [addW, dazW_of_not_daz hdaz, isNaN_of_isFinite ha, isNaN_of_isFinite hb]
  rw [hadd] at hOE ⊢
  by_cases hx : scaled f a + scaled f b = 0
  · have h0 : realOf f a + realOf f b = 0 := by rw [hsum, hx, Int.cast_zero, zero_mul]
    rw [addNumbers_of_zero (isInf_of_isFinite ha) (isInf_of_isFinite hb) h0, zeroSum_eq, h0]
    exact isNearest_self (isFinite_zeroOf f _) (realOf_zeroOf f _)
  · have hval : addNumbers p f st a b = roundPackWith p f st (deFlag f a b) (decide (scaled f a + scaled f b < 0))
        (.ratio (scaled f a + scaled f b).natAbs 1 f.grid) := by
      simp [addNumbers, isInf_of_isFinite ha, isInf_of_isFinite hb, hx]
    rw [hval] at hOE ⊢
    refine isNearest_roundPackWith (Int.natAbs_pos.2 hx) one_pos hrc hftz ?_ hOE
    have hsigned : signFactor (decide (scaled f a + scaled f b < 0)) * ((scaled f a + scaled f b).natAbs : ℚ) =
        ((scaled f a + scaled f b : ℤ) : ℚ) := by
      rw [Nat.cast_natAbs, Int.cast_abs]
      by_cases hneg : scaled f a + scaled f b < 0
      · rw [decide_eq_true hneg, abs_of_neg (Int.cast_lt_zero.2 hneg), signFactor_true, neg_one_mul, neg_neg]
      · rw [decide_eq_false hneg, abs_of_nonneg (Int.cast_nonneg (not_lt.1 hneg)), signFactor_false, one_mul]
    rw [hsum, ← hsigned, ratioValue, Nat.cast_one, div_one, mul_assoc]

theorem mulW_isNearest (ha : isFinite f a = true) (hb : isFinite f b = true) (hdaz : st.daz = false) (hftz : st.ftz = false)
    (hrc : st.rc = .rn) (hOE : (mulW p f st a b).flags.getLsbD 3 = false) :
    IsNearest f (mulW p f st a b).val (realOf f a * realOf f b) := by
  have hna := isNaN_of_isFinite ha
  have hnb := isNaN_of_isFinite hb
  have hia := isInf_of_isFinite ha
  have hib := isInf_of_isFinite hb
  by_cases hz : (isZero f a || isZero f b) = true
  · have h0 : realOf f a * realOf f b = 0 := by
      rw [mul_eq_zero, realOf_eq_zero_iff, realOf_eq_zero_iff]
      exact Bool.or_eq_true_iff.1 hz
    have hval : (mulW p f st a b).val = zeroOf f (sign f a != sign f b) := by
      simp [mulW, dazW_of_not_daz hdaz, hna, hnb, hia, hib, hz]
    rw [hval, h0]
    exact isNearest_self (isFinite_zeroOf f _) (realOf_zeroOf f _)
  · obtain ⟨hza, hzb⟩ : isZero f a = false ∧ isZero f b = false := by simpa using hz
    have hval : mulW p f st a b = roundPackWith p f st (deFlag f a b) (sign f a != sign f b)
        (.ratio (sig f a * sig f b) 1 (unitExp f a + unitExp f b)) := by
      simp [mulW, dazW_of_not_daz hdaz, hna, hnb, hia, hib, hza, hzb]
    rw [hval] at hOE ⊢
    refine isNearest_roundPackWith (Nat.mul_pos (sig_pos_of_not_isZero hza) (sig_pos_of_not_isZero hzb)) one_pos hrc hftz ?_ hOE
    rw [realOf_eq, realOf_eq, signFactor_bne, ratioValue, zpow_add_two]
    push_cast
    ring

theorem divW_isNearest (ha : isFinite f a = true) (hb : isFinite f b = true) (hzb : isZero f b = false) (hdaz : st.daz = false)
    (hftz : st.ftz = false) (hrc : st.rc = .rn) (hOE : (divW p f st a b).flags.getLsbD 3 = false) :
    IsNearest f (divW p f st a b).val (realOf f a / realOf f b) := by
  have hna := isNaN_of_isFinite ha
  have hnb := isNaN_of_isFinite hb
  have hia := isInf_of_isFinite ha
  have hib := isInf_of_isFinite hb
  by_cases hza : isZero f a = true
  · have hval : (divW p f st a b).val = zeroOf f (sign f a != sign f b) := by
      simp [divW, dazW_of_not_daz hdaz, hna, hnb, hia, hib, hza, hzb]
    rw [hval, (realOf_eq_zero_iff f a).2 hza, zero_div]
    exact isNearest_self (isFinite_zeroOf f _) (realOf_zeroOf f _)
  · have hza' : isZero f a = false := by simpa using hza
    have hval : divW p f st a b = roundPackWith p f st (deFlag f a b) (sign f a != sign f b)
        (.ratio (sig f a) (sig f b) (unitExp f a - unitExp f b)) := by
      simp [divW, dazW_of_not_daz hdaz, hna, hnb, hia, hib, hza', hzb]
    rw [hval] at hOE ⊢
    refine isNearest_roundPackWith (sig_pos_of_not_isZero hza') (sig_pos_of_not_isZero hzb) hrc hftz ?_ hOE
    have hinv : (signFactor (sign f b))⁻¹ = signFactor (sign f b) := by cases sign f b <;> simp
    rw [realOf_eq, realOf_eq, signFactor_bne, ratioValue, zpow_sub₀ two_ne_zero, mul_div_mul_comm, div_eq_mul_inv (signFactor _), hinv,
      mul_div_mul_comm]

end Arithmetic

/-- Settles O59: each is an exact zero or the rounding of the exact result. -/
theorem arithmeticIsCorrectlyRounded : Obligations.ArithmeticIsCorrectlyRounded := by
  intro p f st a b ha hb hdaz hftz hrc e he hOE
  obtain he | he := List.mem_append.1 he
  · simp only [List.mem_cons, List.not_mem_nil, or_false] at he
    obtain rfl | rfl := he
    · exact addW_isNearest ha hb hdaz hftz hrc hOE
    · exact mulW_isNearest ha hb hdaz hftz hrc hOE
  · split at he
    · cases he
    · rename_i hz
      obtain rfl := List.mem_singleton.1 he
      exact divW_isNearest ha hb (by simpa using hz) hdaz hftz hrc hOE

end Sys2Proof.Machine

/-!
PROOF. Square roots and scalings (spec/44_minmax_sqrt_scalef.md R134, R135): the root of a finite number neither overflows nor is tiny,
and a scaling within the normal range is exact.
-/

namespace Sys2Proof.Machine

/-! ### Square roots -/

/-- The magnitude that the square root rounds is the root of the operand. -/
theorem sqrtMag_real {f : Fmt} {b : BitVec f.w} (hs : sign f b = false) : (sqrtMag f b).real = √((realOf f b : ℚ) : ℝ) := by
  have hreal : ((realOf f b : ℚ) : ℝ) = sig f b * (2 : ℝ) ^ unitExp f b := by
    rw [realOf_eq, hs, signFactor_false, one_mul]
    push_cast
    rfl
  have hroot {n : ℕ} {e : ℤ} (h : (n : ℝ) * (2 : ℝ) ^ (2 * e) = sig f b * (2 : ℝ) ^ unitExp f b) :
      (Mag.root n e).real = √((realOf f b : ℚ) : ℝ) := by
    have hpos : 0 ≤ (Mag.root n e).real := mul_nonneg (Real.sqrt_nonneg _) (two_zpow_pos e).le
    rw [hreal, ← h, ← Mag.sq_real_root, Real.sqrt_sq hpos]
  unfold sqrtMag
  simp only
  split
  · rename_i heven
    exact hroot (by rw [show 2 * (unitExp f b / 2) = unitExp f b by omega])
  · rename_i hodd
    refine hroot ?_
    have hu : unitExp f b = 2 * ((unitExp f b - 1) / 2) + 1 := by omega
    rw [hu, zpow_add_one₀ two_ne_zero, show (2 * ((unitExp f b - 1) / 2) + 1 - 1) / 2 = (unitExp f b - 1) / 2 by omega]
    push_cast
    ring

theorem sqrtMag_pos {f : Fmt} {b : BitVec f.w} (hz : isZero f b = false) : (sqrtMag f b).Pos := by
  have hsig := sig_pos_of_not_isZero hz
  unfold sqrtMag
  simp only
  split
  · exact hsig
  · exact Nat.mul_pos two_pos hsig

/-- The root of a positive finite number lies well within the normal range. -/
theorem sqrt_bounds {f : Fmt} {b : BitVec f.w} (hfin : isFinite f b = true) (hz : isZero f b = false) (hs : sign f b = false) :
    (2 : ℝ) ^ f.emin ≤ √((realOf f b : ℚ) : ℝ) ∧ √((realOf f b : ℚ) : ℝ) ≤ (2 : ℝ) ^ f.emax := by
  have hlow : (2 : ℚ) ^ f.grid ≤ realOf f b := by
    have hsig : (1 : ℚ) ≤ sig f b := by exact_mod_cast sig_pos_of_not_isZero hz
    rw [realOf_eq, hs, signFactor_false, one_mul]
    calc (2 : ℚ) ^ f.grid ≤ 2 ^ unitExp f b := zpow_le_zpow_right₀ one_le_two (grid_le_unitExp f b)
      _ = 1 * 2 ^ unitExp f b := (one_mul _).symm
      _ ≤ sig f b * 2 ^ unitExp f b := mul_le_mul_of_nonneg_right hsig (zpow_two_pos _).le
  have hhigh : realOf f b < 2 ^ (f.emax + 1) := (le_abs_self _).trans_lt (abs_realOf_lt hfin)
  have hlow' := (Rat.cast_le (K := ℝ)).2 hlow
  have hhigh' := (Rat.cast_lt (K := ℝ)).2 hhigh
  push_cast at hlow' hhigh'
  constructor
  · refine Real.le_sqrt_of_sq_le (le_trans ?_ hlow')
    rw [← zpow_two_mul]
    exact zpow_le_zpow_right₀ one_le_two (by cases f <;> decide)
  · refine Real.sqrt_le_iff.2 ⟨(two_zpow_pos _).le, hhigh'.le.trans ?_⟩
    rw [← zpow_two_mul]
    exact zpow_le_zpow_right₀ one_le_two (by cases f <;> decide)

/-- Settles O60: the rounding of the root is on the grid, where it is the nearest. -/
theorem sqrtIsCorrectlyRounded : Obligations.SqrtIsCorrectlyRounded := by
  intro p f st b hfin hz hs hdaz hrc
  have hpos := sqrtMag_pos hz
  have hreal := sqrtMag_real hs
  obtain ⟨hlow, hhigh⟩ := sqrt_bounds hfin hz hs
  rw [← hreal] at hlow hhigh ⊢
  have hval : (sqrtW p f st b).val = (roundPack p f { st with ftz := false } false (sqrtMag f b)).val := by
    rw [← roundPack_of_not_tiny hpos fun htiny => absurd htiny.lt (not_lt.2 hlow)]
    simp [sqrtW, dazW_of_not_daz hdaz, isNaN_of_isFinite hfin, isInf_of_isFinite hfin, hz, hs, roundPackWith]
  have hup : ¬RoundsUpToReal f st.rc false ((2 : ℝ) ^ (f.emax + 1)) (sqrtMag f b).real := by
    obtain ⟨-, hu, -⟩ := ulp_pos_lt f
    refine RoundsUpToReal.not_of_le (two_zpow_pos _) (hhigh.trans ?_)
    rw [zpow_add_one₀ two_ne_zero]
    nlinarith [two_zpow_pos f.emax]
  obtain ⟨q, r, -, hr, -⟩ := roundPack_of_rounded (p := p) (st := { st with ftz := false }) hpos hup rfl
  rw [hval]
  refine ⟨hr.finite, fun y _ => ?_⟩
  have hnear := (hr.nearest hrc (Mag.real_pos hpos) y).1
  rwa [signFactor_false, Rat.cast_one, one_mul] at hnear

/-! ### SCALEF -/

/-- A power of two as a rational number, with its negative part below. -/
theorem zpow_eq_pow2_div (k : ℤ) : (2 : ℚ) ^ k = (pow2 k : ℚ) / pow2 (-k) := by
  have hne : (pow2 (-k) : ℚ) ≠ 0 := Nat.cast_ne_zero.2 (pow2_pos _).ne'
  rw [eq_div_iff hne]
  refine Rat.cast_injective (α := ℝ) ?_
  push_cast
  exact zpow_mul_pow2_neg k

/-- `floorReal` is the floor of the real number. -/
theorem floorReal_eq (f : Fmt) (b : BitVec f.w) : floorReal f b = ⌊realOf f b⌋ := by
  have hreal : realOf f b = ((signedInt (sign f b) (sig f b) * (pow2 (unitExp f b) : ℤ) : ℤ) : ℚ) / (pow2 (-unitExp f b) : ℕ) := by
    rw [realOf_eq, zpow_eq_pow2_div, Int.cast_mul, cast_signedInt]
    push_cast
    ring
  rw [hreal, Rat.floor_intCast_div_natCast, floorReal, Int.fdiv_eq_ediv_of_nonneg _ (Int.natCast_nonneg _)]
  rfl

/-- A significand of the normal range rounds to itself, without a flag (R62). -/
theorem roundPack_exact {p : Params} {f : Fmt} {st : Status} {s : Bool} {c : ℕ} {k : ℤ} (hlt : c < 2 ^ f.p)
    (hnorm : 2 ^ (f.p - 1) ≤ c) (hmin : f.grid ≤ k) (hmax : k + f.p - 1 ≤ f.emax) :
    isFinite f (roundPack p f st s (.ratio c 1 k)).val = true ∧
      realOf f (roundPack p f st s (.ratio c 1 k)).val = signFactor s * (c * 2 ^ k) ∧
      (roundPack p f st s (.ratio c 1 k)).flags = 0 := by
  have hc : 0 < c := (Nat.two_pow_pos _).trans_le hnorm
  have hpos : (Mag.ratio c 1 k).Pos := ⟨hc, one_pos⟩
  have hreal : (Mag.ratio c 1 k).real = c * (2 : ℝ) ^ k := by rw [Mag.real, Nat.cast_one, div_one]
  have hk := two_zpow_pos k
  have hgrid : f.grid = f.emin - f.p + 1 := rfl
  have hlow : (2 : ℝ) ^ (k + f.p - 1) ≤ (Mag.ratio c 1 k).real := by
    have hc' : (2 : ℝ) ^ ((f.p - 1 : ℕ) : ℤ) ≤ c := by exact_mod_cast hnorm
    rw [hreal, show k + f.p - 1 = ((f.p - 1 : ℕ) : ℤ) + k by rw [f.cast_p_sub_one]; ring, zpow_add₀ two_ne_zero]
    exact mul_le_mul_of_nonneg_right hc' hk.le
  have hhigh : (Mag.ratio c 1 k).real < (2 : ℝ) ^ ((f.p : ℤ) + k) := by
    have hc' : (c : ℝ) < (2 : ℝ) ^ (f.p : ℤ) := by exact_mod_cast hlt
    rw [hreal, zpow_add₀ two_ne_zero]
    exact mul_lt_mul_of_pos_right hc' hk
  have htiny : ¬TinyReal p f st.rc s (Mag.ratio c 1 k).real := fun h =>
    absurd h.lt (not_lt.2 ((zpow_le_zpow_right₀ one_le_two (by omega)).trans hlow))
  have hup : ¬RoundsUpToReal f st.rc s ((2 : ℝ) ^ (f.emax + 1)) (Mag.ratio c 1 k).real := by
    refine RoundsUpToReal.not_of_le (two_zpow_pos _) ?_
    have hc' : (c : ℝ) ≤ (2 : ℝ) ^ (f.p : ℤ) - 1 := by
      have : ((c + 1 : ℕ) : ℝ) ≤ (2 : ℝ) ^ (f.p : ℤ) := by exact_mod_cast hlt
      push_cast at this
      linarith
    have hsplit : (2 : ℝ) ^ (f.emax + 1) * (1 - (2 : ℝ) ^ (-(f.p : ℤ))) =
        ((2 : ℝ) ^ (f.p : ℤ) - 1) * (2 : ℝ) ^ (f.emax - f.p + 1) := by
      rw [mul_sub, sub_mul, ← zpow_add₀ two_ne_zero, ← zpow_add₀ two_ne_zero, mul_one, one_mul]
      congr 2 <;> ring
    rw [hreal, hsplit]
    exact mul_le_mul hc' (zpow_le_zpow_right₀ one_le_two (by omega)) hk.le
      (sub_nonneg.2 (one_le_zpow₀ one_le_two (Int.natCast_nonneg _)))
  have htiny' : roundTiny p f st.rc s (.ratio c 1 k) = false := by
    rw [← Bool.not_eq_true, roundTiny_iff hpos]
    exact htiny
  rw [roundPack_of_not_tiny hpos htiny]
  obtain ⟨q, r, exact, hr, hexact, hflags⟩ := roundPack_of_rounded (p := p) (st := { st with ftz := false }) hpos hup rfl
  -- the grid of the binade divides the unit of the significand
  have hq : q ≤ k := by
    obtain rfl | hb := hr.binade
    · exact hmin
    · have := (zpow_lt_zpow_iff_right₀ one_lt_two).1 (hb.trans_lt hhigh)
      omega
  obtain ⟨j, hj⟩ := Int.le.dest hq
  have hint : (Mag.ratio c 1 k).real / (2 : ℝ) ^ q = ((c * 2 ^ j : ℕ) : ℝ) := by
    rw [hreal, div_eq_iff (two_zpow_pos q).ne', ← hj, zpow_add₀ two_ne_zero, zpow_natCast]
    push_cast
    ring
  have hrc : r = c * 2 ^ j := Rounds.eq_of_integral (hint ▸ hr.rounds)
  have hv : (r : ℝ) * (2 : ℝ) ^ q = (Mag.ratio c 1 k).real := by
    rw [hrc, ← hint, div_mul_cancel₀ _ (two_zpow_pos q).ne']
  refine ⟨hr.finite, ?_, ?_⟩
  · rw [hr.real, hrc, ← hj, zpow_add_two, zpow_natCast]
    push_cast
    ring
  · rw [hflags, hexact.2 hv]
    rw [show roundTiny p f ({ st with ftz := false } : Status).rc s (.ratio c 1 k) = false from htiny']
    simp [flagIf]

/-- The DE flag of SCALEF, either way it is written. -/
theorem scalefDe_eq (x y : Bool) : flagIf x flagDE ||| flagIf y flagDE = if x || y then flagDE else 0 := by
  cases x <;> cases y <;> rfl

/-- SCALEF of a normal number by a finite one that is no denormal rounds the product with the power of two (R135). -/
theorem scalefW_of_normal {d : BitVec 64} {p : Params} {f : Fmt} {st : Status} {a b : BitVec f.w} (ha : isFinite f a = true)
    (hza : isZero f a = false) (hda : isDenormal f a = false) (hb : isFinite f b = true) (hdb : isDenormal f b = false)
    (hlow : (scalefBounds f).1 ≤ ⌊realOf f b⌋) (hhigh : ⌊realOf f b⌋ ≤ (scalefBounds f).2) :
    scalefW d p f st a b = roundPackWith p f st 0 (sign f a) (.ratio (sig f a) 1 (unitExp f a + ⌊realOf f b⌋)) := by
  simp only [scalefW, dazW_of_not_isDenormal hda, dazW_of_not_isDenormal hdb, isNaN_of_isFinite ha, isNaN_of_isFinite hb,
    isInf_of_isFinite ha, isInf_of_isFinite hb, hza, hda, hdb, Bool.or_self, Bool.false_and, Bool.false_eq_true, if_false, floorReal_eq,
    min_eq_left hhigh, max_eq_right hlow, scalefDe_eq]

/-- The special cases of SCALEF that are not invalid, after DAZ (R135). -/
theorem scalefW_special {d : BitVec 64} {p : Params} {f : Fmt} {st : Status} {x y a b : BitVec f.w} {de : BitVec 6}
    (ha : dazW f st x = a) (hb : dazW f st y = b)
    (hde : flagIf (isDenormal f a) flagDE ||| flagIf (isDenormal f b && p.scalefDeB) flagDE = de) (hna : isNaN f a = false) :
    (isInf f b = true → sign f b = false → isZero f a = false →
      scalefW d p f st x y = { val := infOf f (sign f a), flags := de }) ∧
    (isInf f b = true → sign f b = true → isInf f a = false →
      scalefW d p f st x y = { val := zeroOf f (sign f a), flags := de }) ∧
    (isFinite f b = true → isInf f a = true ∨ isZero f a = true → scalefW d p f st x y = { val := a, flags := de }) := by
  simp only [scalefW, ha, hb, hde]
  refine ⟨fun hinf hs hz => ?_, fun hinf hs hia => ?_, fun hfin hor => ?_⟩
  · simp [hna, isNaN_of_isInf hinf, hinf, hs, hz]
  · simp [hna, isNaN_of_isInf hinf, hinf, hs, hia]
  · simp [hna, isNaN_of_isFinite hfin, isInf_of_isFinite hfin, hor]

/-- Settles O49: in range the product is a number of the format, and the special cases are branches of the primitive. -/
theorem scalefIsExactInRange : Obligations.ScalefIsExactInRange := by
  refine ⟨fun d p f st a b ha hza hda hb hdb hlow hhigh => ?_, fun d p f st x y => ?_⟩
  · have hE0 : expField f a ≠ 0 := fun h0 => by
      by_cases ht : frac f a = 0
      · exact Bool.false_ne_true (hza.symm.trans (isZero_iff.2 ⟨h0, ht⟩))
      · exact Bool.false_ne_true (hda.symm.trans (isDenormal_iff.2 ⟨h0, ht⟩))
    have hEle := expField_le f a
    have hones := f.expOnes_eq
    have hgrid : f.grid = f.emin - f.p + 1 := rfl
    have hunit := unitExp_eq f a
    have hnorm : 2 ^ (f.p - 1) ≤ sig f a := by
      rw [sig_eq, if_neg hE0]
      exact Nat.le_add_right _ _
    have hbounds : (scalefBounds f).1 ≤ -(f.expOnes : ℤ) ∧ (f.expOnes : ℤ) ≤ (scalefBounds f).2 := by cases f <;> decide
    rw [scalefW_of_normal ha hza hda hb hdb (by omega) (by omega)]
    obtain ⟨hfin, hreal, hflags⟩ := roundPack_exact (p := p) (st := st) (s := sign f a) (k := unitExp f a + ⌊realOf f b⌋) (sig_lt f a)
      hnorm (by omega) (by omega)
    refine ⟨hfin, hreal.trans ?_, ?_⟩
    · rw [realOf_eq f a, zpow_add_two, mul_assoc, mul_assoc]
    · rw [roundPackWith, hflags]
      rfl
  · intro a b de hna
    exact scalefW_special rfl rfl (scalefDe_eq _ _) hna

end Sys2Proof.Machine

/-!
PROOF. The compares (spec/41_compare.md R73, R75, R76): the model's comparison by the integer `scaled` is that of real values, with
the infinities outside the finite numbers, and the model's table is the one of R73.
-/

namespace Sys2Proof.Machine

/-! ### The order of the patterns that are no NaN -/

/-- What `scaled` reads of a positive infinity. -/
def infScaled (f : Fmt) : ℤ := ((2 ^ (f.p - 1) * 2 ^ (f.expOnes - 1) : ℕ) : ℤ)

theorem infScaled_pos (f : Fmt) : 0 < infScaled f := Int.natCast_pos.2 (Nat.mul_pos (Nat.two_pow_pos _) (Nat.two_pow_pos _))

theorem scaled_of_isInf {f : Fmt} {x : BitVec f.w} (h : isInf f x = true) :
    scaled f x = if sign f x then -infScaled f else infScaled f := by
  obtain ⟨he, ht⟩ := isInf_iff.1 h
  have hones := f.expOnes_ne_zero
  rw [scaled, sig_eq, he, ht, if_neg hones, max_eq_left (by omega), add_zero, infScaled]

/-- A finite pattern lies between the infinities: its significand is below `2^p`, its exponent field below the one of all ones. -/
theorem abs_scaled_lt_of_isFinite {f : Fmt} {x : BitVec f.w} (h : isFinite f x = true) : |scaled f x| < infScaled f := by
  have he := isFinite_iff.1 h
  have hle := expField_le f x
  have hones : 2 ≤ f.expOnes := by cases f <;> decide
  have hbound : 2 ^ f.p * 2 ^ (f.expOnes - 2) = 2 ^ (f.p - 1) * 2 ^ (f.expOnes - 1) := by
    rw [f.two_pow_p, show f.expOnes - 1 = f.expOnes - 2 + 1 by omega, pow_succ]
    ring
  have hlt : sig f x * 2 ^ (max (expField f x) 1 - 1) < 2 ^ (f.p - 1) * 2 ^ (f.expOnes - 1) :=
    calc sig f x * 2 ^ (max (expField f x) 1 - 1)
        ≤ sig f x * 2 ^ (f.expOnes - 2) := Nat.mul_le_mul_left _ (Nat.pow_le_pow_right two_pos (by omega))
      _ < 2 ^ f.p * 2 ^ (f.expOnes - 2) := Nat.mul_lt_mul_of_pos_right (sig_lt f x) (Nat.two_pow_pos _)
      _ = 2 ^ (f.p - 1) * 2 ^ (f.expOnes - 1) := hbound
  have habs : |scaled f x| = ((sig f x * 2 ^ (max (expField f x) 1 - 1) : ℕ) : ℤ) := by
    rw [scaled]
    split
    · rw [abs_neg, Nat.abs_cast]
    · rw [Nat.abs_cast]
  rw [habs, infScaled]
  exact Int.ofNat_lt.2 hlt

theorem isFinite_of_not_isInf {f : Fmt} {x : BitVec f.w} (hnan : isNaN f x = false) (hinf : isInf f x = false) :
    isFinite f x = true := by
  refine isFinite_iff.2 fun he => ?_
  by_cases ht : frac f x = 0
  · exact Bool.false_ne_true (hinf.symm.trans (isInf_iff.2 ⟨he, ht⟩))
  · exact Bool.false_ne_true (hnan.symm.trans (isNaN_iff.2 ⟨he, ht⟩))

/-- The order of the rules, on patterns that are no NaN, is the one of `scaled` (R75). -/
theorem lessThan_iff_scaled_lt {f : Fmt} {a b : BitVec f.w} (ha : isNaN f a = false) (hb : isNaN f b = false) :
    LessThan f a b ↔ scaled f a < scaled f b := by
  have hpos := infScaled_pos f
  unfold LessThan
  cases hia : isInf f a with
  | true =>
    have hsa := scaled_of_isInf hia
    cases hib : isInf f b with
    | true =>
      have hsb := scaled_of_isInf hib
      rw [hsa, hsb]
      cases sign f a <;> cases sign f b <;> simp <;> omega
    | false =>
      obtain ⟨hlow, hhigh⟩ := abs_lt.1 (abs_scaled_lt_of_isFinite (isFinite_of_not_isInf hb hib))
      rw [hsa]
      cases sign f a <;> simp <;> omega
  | false =>
    cases hib : isInf f b with
    | true =>
      have hsb := scaled_of_isInf hib
      obtain ⟨hlow, hhigh⟩ := abs_lt.1 (abs_scaled_lt_of_isFinite (isFinite_of_not_isInf ha hia))
      rw [hsb]
      cases sign f b <;> simp <;> omega
    | false =>
      simp only [Bool.false_eq_true, if_false]
      rw [realOf_eq_scaled, realOf_eq_scaled, mul_lt_mul_iff_left₀ (zpow_two_pos _), Int.cast_lt]

/-! ### The relation of two operands -/

theorem relate_of_isNaN {f : Fmt} {a b : BitVec f.w} (h : isNaN f a = true ∨ isNaN f b = true) : relate f a b = .un :=
  if_pos (Bool.or_eq_true_iff.2 h)

section Ordered

variable {f : Fmt} {a b : BitVec f.w} (ha : isNaN f a = false) (hb : isNaN f b = false)

include ha hb

theorem relate_of_ordered :
    relate f a b = if scaled f a < scaled f b then .lt else if scaled f b < scaled f a then .gt else .eq := by
  rw [relate, ha, hb, Bool.or_self, if_neg Bool.false_ne_true]

theorem relate_of_lessThan (h : LessThan f a b) : relate f a b = .lt := by
  rw [relate_of_ordered ha hb, if_pos ((lessThan_iff_scaled_lt ha hb).1 h)]

theorem relate_of_greaterThan (h : LessThan f b a) : relate f a b = .gt := by
  have hlt := (lessThan_iff_scaled_lt hb ha).1 h
  rw [relate_of_ordered ha hb, if_neg hlt.not_gt, if_pos hlt]

theorem relate_of_equal (hab : ¬LessThan f a b) (hba : ¬LessThan f b a) : relate f a b = .eq := by
  rw [lessThan_iff_scaled_lt ha hb] at hab
  rw [lessThan_iff_scaled_lt hb ha] at hba
  rw [relate_of_ordered ha hb, if_neg hab, if_neg hba]

end Ordered

/-! ### The table -/

/-- Row `n` of the table, in the columns GT, LT, EQ, UN and the class (R73). -/
theorem legacyPredicate_eq_row : ∀ n < 16,
    let row := predicateRows.getD n (false, false, false, false, false)
    legacyPredicate n = ⟨row.1, row.2.1, row.2.2.1, row.2.2.2.1, row.2.2.2.2⟩ := by
  decide

theorem predicate_eq_row (c : BitVec 5) :
    let row := predicateRows.getD (c.toNat % 16) (false, false, false, false, false)
    predicate c = ⟨row.1, row.2.1, row.2.2.1, row.2.2.2.1, row.2.2.2.2 != decide (16 ≤ c.toNat)⟩ := by
  rw [predicate, legacyPredicate_eq_row _ (Nat.mod_lt _ (by decide))]

/-- The code 16 above has the same results and the other class (R72). -/
theorem predicate_add_sixteen {c : BitVec 5} (h : c.toNat < 16) :
    predicate (c + 16) = { predicate c with signalling := !(predicate c).signalling } := by
  have hc : (c + 16).toNat = c.toNat + 16 := by
    rw [BitVec.toNat_add, show (16 : BitVec 5).toNat = 16 from rfl]
    omega
  have hlow : decide (16 ≤ c.toNat) = false := decide_eq_false (by omega)
  have hhigh : decide (16 ≤ c.toNat + 16) = true := decide_eq_true (by omega)
  simp only [predicate, hc, hlow, hhigh, Nat.add_mod_right, Bool.bne_true, Bool.bne_false]

theorem holds_predicate_add_sixteen {c : BitVec 5} (h : c.toNat < 16) (r : Relation) :
    (predicate (c + 16)).holds r = (predicate c).holds r := by
  rw [predicate_add_sixteen h]
  cases r <;> rfl

/-! ### One lane -/

theorem cmpW_val (c : BitVec 5) (p : Params) (f : Fmt) (st : Status) (a b : BitVec f.w) :
    (cmpW c p f st a b).val =
      if (predicate c).holds (relate f (dazW f st a) (dazW f st b)) then BitVec.allOnes f.w else 0 := rfl

theorem cmpW_of_isNaN {f : Fmt} {a b : BitVec f.w} (c : BitVec 5) (p : Params) (st : Status)
    (h : isNaN f a = true ∨ isNaN f b = true) :
    cmpW c p f st a b =
      { val := if (predicate c).un then BitVec.allOnes f.w else 0
        flags := flagIf (isSNaN f a || isSNaN f b || (predicate c).signalling) flagIE } := by
  have hdaz := isNaN_or_dazW st h
  simp only [cmpW, relate_of_isNaN (Bool.or_eq_true_iff.1 hdaz), Predicate.holds, if_pos hdaz, isSNaN_dazW]

theorem cmpW_flags_of_ordered {f : Fmt} {a b : BitVec f.w} (c : BitVec 5) (p : Params) (st : Status) (ha : isNaN f a = false)
    (hb : isNaN f b = false) : (cmpW c p f st a b).flags = deFlag f (dazW f st a) (dazW f st b) :=
  if_neg (by rw [isNaN_dazW, isNaN_dazW, ha, hb, Bool.or_self]; exact Bool.false_ne_true)

/-- Settles O46: the relation that the lane's real values stand in selects the entry of the table. -/
theorem compareLane : Obligations.CompareLane := by
  intro c p f st x y a b row signals mask
  have hrow : predicate c = ⟨row.1, row.2.1, row.2.2.1, row.2.2.2.1, signals⟩ := predicate_eq_row c
  have hval {r : Relation} (h : relate f a b = r) : (cmpW c p f st x y).val = mask ((predicate c).holds r) :=
    h ▸ cmpW_val c p f st x y
  have hna : isNaN f a = isNaN f x := isNaN_dazW f st x
  have hnb : isNaN f b = isNaN f y := isNaN_dazW f st y
  have hsnan : (isSNaN f a || isSNaN f b) = (isSNaN f x || isSNaN f y) :=
    congrArg₂ or (isSNaN_dazW f st x) (isSNaN_dazW f st y)
  refine ⟨fun h => ?_, fun ha hb => ⟨fun h => ?_, fun h => ?_, fun hab hba => ?_, ?_⟩⟩
  · rw [cmpW_of_isNaN c p st (hna ▸ hnb ▸ h), hrow, hsnan]
    rfl
  · rw [hval (relate_of_greaterThan ha hb h), hrow, Predicate.holds]
  · rw [hval (relate_of_lessThan ha hb h), hrow, Predicate.holds]
  · rw [hval (relate_of_equal ha hb hab hba), hrow, Predicate.holds]
  · exact cmpW_flags_of_ordered c p st (hna ▸ ha) (hnb ▸ hb)

/-- Beside a NaN, with `s` for an SNaN among the operands and `g` for the class: opposite classes differ in IE without an SNaN. -/
theorem flagIf_or_class_ne_iff (s g : Bool) : flagIf (s || g) flagIE ≠ flagIf (s || !g) flagIE ↔ s = false := by
  cases s <;> cases g <;> decide

theorem flagIf_or_self (g : Bool) (fl : FlagSet) : flagIf g fl ||| fl = fl := by
  cases g
  · exact BitVec.zero_or
  · exact BitVec.or_self

/-- Settles O47: the two codes have the same results and opposite classes, and the class counts beside a NaN alone. -/
theorem comparePairsAgree : Obligations.ComparePairsAgree := by
  intro c p f st a b hc
  refine ⟨by rw [cmpW_val, cmpW_val, holds_predicate_add_sixteen hc], ?_⟩
  by_cases h : isNaN f a = true ∨ isNaN f b = true
  · rw [cmpW_of_isNaN c p st h, cmpW_of_isNaN (c + 16) p st h, predicate_add_sixteen hc, flagIf_or_self, flagIf_or_self,
      flagIf_or_class_ne_iff, Bool.or_eq_false_iff]
    exact ⟨rfl, (and_iff_right h).symm⟩
  · obtain ⟨ha, hb⟩ := not_or.1 h
    rw [Bool.not_eq_true] at ha hb
    rw [cmpW_flags_of_ordered c p st ha hb, cmpW_flags_of_ordered (c + 16) p st ha hb]
    exact ⟨rfl, iff_of_false (fun hne => hne rfl) fun ⟨hnan, _⟩ => h hnan⟩

end Sys2Proof.Machine

/-!
PROOF. The exception of the legacy forms (spec/60_exceptions.md R211, R212), and the sub-blocks on which the packed forms work apart
(spec/42_lane_resolver.md R86, spec/45_round_horizontal.md R165 to R167, spec/46_dot_product.md R190).
-/

namespace Sys2Proof.Machine

/-! ### The exception of the legacy forms -/

/-- Settles O26: what a legacy form commits, by cases on its report as `State.committed` has them. -/
theorem legacyUnmaskedFlagFaults : Obligations.LegacyUnmaskedFlagFaults := by
  constructor
  · intro imm e he s dst src hwf hd hb
    obtain ⟨R, fl, hcommit, -, hresult⟩ := legacyPackedForms_commits he hwf hd hb
    exact ⟨R, fl, hcommit, hresult⟩
  · intro imm e he s dst src hwf hd hb
    obtain ⟨R, fl, hcommit, -, hresult⟩ := legacyScalarForms_commits he hwf hd hb
    exact ⟨R, fl, hcommit, hresult⟩

/-! ### Lanes that read one sub-block -/

/-- Each lane is computed from the operands' sub-blocks in its own place alone (R86). -/
def ReadsOwnSubBlock {f : Fmt} (op : LaneOp f) : Prop :=
  ∀ (p : Params) (st : Status) (a a' b b' : VecWord) (i : Nat),
    a'.block (i / f.perBlock) = a.block (i / f.perBlock) → b'.block (i / f.perBlock) = b.block (i / f.perBlock) →
    op p st a' b' i = op p st a b i

/-- Values that agree on a sub-block agree on its lanes (R29). -/
theorem lane_congr_block {f : Fmt} {v v' : VecWord} {i j : Nat} (h : v'.block j = v.block j) (hi : i / f.perBlock = j) :
    lane f v' i = lane f v i := by
  rw [lane_eq_blockLane, lane_eq_blockLane, hi, h]

/-- Both lanes of an adjacent pair lie in the sub-block of the lane that they give (R165, R166). -/
theorem readsOwnSubBlock_pairLanes (f : Fmt) (prim : Primitive) : ReadsOwnSubBlock (pairLanes f prim) := by
  intro p st a a' b b' i ha hb
  have hpair (l : Nat) (hl : l < f.perBlock / 2) :
      (i / f.perBlock * f.perBlock + 2 * l) / f.perBlock = i / f.perBlock ∧
        (i / f.perBlock * f.perBlock + 2 * l + 1) / f.perBlock = i / f.perBlock := by
    cases f <;> simp only [perBlock_f32, perBlock_f64] at hl ⊢ <;> omega
  have hhigh : i % f.perBlock - f.perBlock / 2 < f.perBlock / 2 := by
    cases f <;> simp only [perBlock_f32, perBlock_f64] <;> omega
  unfold pairLanes
  by_cases hl : i % f.perBlock < f.perBlock / 2
  · obtain ⟨h0, h1⟩ := hpair _ hl
    simp only [if_pos hl, lane_congr_block ha h0, lane_congr_block ha h1]
  · obtain ⟨h0, h1⟩ := hpair _ hhigh
    simp only [if_neg hl, lane_congr_block hb h0, lane_congr_block hb h1]

/-- Alternating lanes read the operands' lanes in their own place (R167). -/
theorem readsOwnSubBlock_addsubLanes (f : Fmt) : ReadsOwnSubBlock (addsubLanes f) := by
  intro p st a a' b b' i ha hb
  unfold addsubLanes
  rw [lane_congr_block ha rfl, lane_congr_block hb rfl]

theorem swapPairs_lt (l : Nat) : swapPairs l < 4 := by
  unfold swapPairs
  split <;> decide

theorem swapHalves_lt (l : Nat) : swapHalves l < 4 := by
  unfold swapHalves
  split <;> decide

/-- The three steps of the masked reduction in sub-block `j` read the operands' lanes `4 * j` to `4 * j + 3` (R188, R190). -/
theorem readsOwnSubBlock_dpLanes (imm : BitVec 8) : ReadsOwnSubBlock (dpLanes imm) := by
  intro p st a a' b b' i ha hb
  have hproduct (l : Nat) (hl : l < 4) : dpProduct imm p st a' b' (i / 4) l = dpProduct imm p st a b (i / 4) l := by
    have hi : (4 * (i / 4) + l) / Fmt.perBlock .f32 = i / 4 := by
      rw [perBlock_f32]
      omega
    unfold dpProduct
    rw [lane_congr_block ha hi, lane_congr_block hb hi]
  have hsum (l : Nat) (hl : l < 4) : dpPairSum imm p st a' b' (i / 4) l = dpPairSum imm p st a b (i / 4) l := by
    unfold dpPairSum
    rw [hproduct _ (swapPairs_lt l), hproduct l hl]
  have htotal (l : Nat) (hl : l < 4) : dpTotal imm p st a' b' (i / 4) l = dpTotal imm p st a b (i / 4) l := by
    unfold dpTotal
    rw [hsum l hl, hsum _ (swapHalves_lt l)]
  have hl : i % 4 < 4 := Nat.mod_lt _ (by decide)
  unfold dpLanes
  simp only [hproduct _ hl, hsum _ hl, htotal _ hl]

/-! ### One sub-block of a result -/

/-- A sub-block of a packed non-legacy result (R88). -/
theorem block_writeBackPacked (f : Fmt) (d : Desc) (ci : CallIn) (t : Nat → BitVec f.w) {j : Nat} (hj : j < 4) :
    (writeBackPacked f d ci t).block j =
      if j < subBlocks d.vl then
        blockOf f fun l =>
          if ci.enabled (j * f.perBlock + l) then t (j * f.perBlock + l)
          else if d.kz then 0 else lane f ci.dold (j * f.perBlock + l)
      else 0 := by
  match j, hj with
  | 0, _ | 1, _ | 2, _ | 3, _ => rfl

/-- A lane of sub-block `j` lies in it, and is one of the sixteen that a mask has bits for. -/
theorem lane_of_subBlock (f : Fmt) {j l : Nat} (hj : j < 4) (hl : l < f.perBlock) :
    (j * f.perBlock + l) / f.perBlock = j ∧ j * f.perBlock + l < 16 := by
  cases f <;> simp only [perBlock_f32, perBlock_f64] at hl ⊢ <;> omega

/-- Packed non-legacy results of lanes that agree on a sub-block agree on it, without a mask whatever the destination held (R88). -/
theorem block_writeBackPacked_congr {f : Fmt} {d : Desc} {ci ci' : CallIn} {t t' : Nat → BitVec f.w} {j : Nat}
    (he : ∀ i < 16, ci.enabled i = true) (he' : ∀ i < 16, ci'.enabled i = true) (h : ∀ i, i / f.perBlock = j → t' i = t i) :
    (writeBackPacked f d ci' t').block j = (writeBackPacked f d ci t).block j := by
  by_cases hj : j < 4
  · rw [block_writeBackPacked f d ci' t' hj, block_writeBackPacked f d ci t hj]
    refine ite_congr rfl (fun _ => blockOf_congr fun l hl => ?_) fun _ => rfl
    obtain ⟨hdiv, h16⟩ := lane_of_subBlock f hj hl
    rw [if_pos (he' _ h16), if_pos (he _ h16), h _ hdiv]
  · obtain ⟨k, rfl⟩ := Nat.exists_eq_add_of_le' (Nat.le_of_not_lt hj)
    rfl

/-- Packed legacy results likewise, where the destinations agree on that sub-block: above the lowest they keep it (R89). -/
theorem block_writeBackLegacyPacked_congr {f : Fmt} {ci ci' : CallIn} {t t' : Nat → BitVec f.w} {j : Nat}
    (hold : ci'.dold.block j = ci.dold.block j) (h : ∀ i, i / f.perBlock = j → t' i = t i) :
    (writeBackLegacyPacked f ci' t').block j = (writeBackLegacyPacked f ci t).block j := by
  match j with
  | 0 => exact blockOf_congr fun l hl => h l (Nat.div_eq_of_lt hl)
  | 1 | 2 | 3 | _ + 4 => exact hold

/-- A register holds of a sub-block all or nothing (R7). -/
theorem block_clip_congr (p : Params) {v v' : VecWord} {j : Nat} (h : v'.block j = v.block j) :
    (clip p v').block j = (clip p v).block j := by
  unfold clip
  cases p.maxvl with
  | w512 => exact h
  | w256 =>
    match j with
    | 0 | 1 => exact h
    | 2 | 3 | _ + 4 => rfl

/-! ### The call -/

/-- The destination of a call that writes it with every exception masked (R211). -/
theorem readX_commit_of_allMasked {d : Desc} {o : CallOut} {s : State} (h : s.AllMasked) (hw : o.we = true) :
    (commit d o s).readX d.dst = clip s.cfg o.r := by
  rw [commit_of_masked (masked_of_allMasked h o.flags), hw]
  exact (s.stick o.flags).readX_writeX_self d.dst o.r

/-- A sub-block of a packed result without a mask depends on the parameters, on MXCSR and on that sub-block of the operands, of
which the destination of a legacy form is one. -/
theorem block_blockCall_congr {d : Desc} {f : Fmt} {op : LaneOp f} (hop : ReadsOwnSubBlock op) (hsc : d.scalar = false)
    (hk : d.ksel = 0) (hdst : d.nl = true ∨ d.src1 = d.dst) {s s' : State} (hcfg : s'.cfg = s.cfg) (hmx : s'.mxcsr = s.mxcsr)
    {j : Nat} (ha : (s'.readX d.src1).block j = (s.readX d.src1).block j)
    (hb : (s'.sample d).b.block j = (s.sample d).b.block j) :
    (blockCall s'.cfg d f op (s'.sample d)).r.block j = (blockCall s.cfg d f op (s.sample d)).r.block j := by
  have hlanes : ∀ i, i / f.perBlock = j →
      (op s'.cfg (build s'.mxcsr d) (s'.sample d).a (s'.sample d).b i).val =
        (op s.cfg (build s.mxcsr d) (s.sample d).a (s.sample d).b i).val := by
    rintro i rfl
    rw [hcfg, hmx]
    exact congrArg LaneRes.val (hop _ _ _ _ _ _ i ha hb)
  cases hnl : d.nl with
  | true =>
    simp only [blockCall, writeBack, hsc, hnl]
    exact block_writeBackPacked_congr (fun _ => enabled_of_no_mask s hk) (fun _ => enabled_of_no_mask s' hk) hlanes
  | false =>
    rw [hdst.resolve_left (hnl ▸ Bool.false_ne_true)] at ha
    simp only [blockCall, writeBack, hsc, hnl]
    exact block_writeBackLegacyPacked_congr ha hlanes

/-- With every exception masked a sub-block of the destination of such a call depends on no more. -/
theorem call_block_congr {d : Desc} {f : Fmt} {op : LaneOp f} (hop : ReadsOwnSubBlock op) (hsc : d.scalar = false)
    (hk : d.ksel = 0) (hdst : d.nl = true ∨ d.src1 = d.dst) {src : Src} (hmem : d.mem = src.isMem) (hsrc : d.src2 = src.index)
    {s s' t t' : State} (hmasked : s.AllMasked) (hcfg : s'.cfg = s.cfg) (hmx : s'.mxcsr = s.mxcsr) {j : Nat}
    (ha : (s'.readX d.src1).block j = (s.readX d.src1).block j)
    (hb : (s'.operandB src).block j = (s.operandB src).block j) (ht : call d f op s = .next t)
    (ht' : call d f op s' = .next t') : (t'.readX d.dst).block j = (t.readX d.dst).block j := by
  obtain ⟨-, rfl⟩ := call_eq_next.1 ht
  obtain ⟨-, rfl⟩ := call_eq_next.1 ht'
  have hmasked' : s'.AllMasked := (congrArg (BitVec.extractLsb' 7 6) hmx).trans hmasked
  rw [readX_commit_of_allMasked hmasked rfl, readX_commit_of_allMasked hmasked' rfl]
  rw [← sample_b s d src hmem hsrc, ← sample_b s' d src hmem hsrc] at hb
  have hr := block_blockCall_congr hop hsc hk hdst hcfg hmx ha hb
  rw [hcfg] at hr ⊢
  exact block_clip_congr s.cfg hr

/-! ### The forms that work on sub-blocks -/

/-- A non-legacy form on sub-blocks is one packed call without EVEX fields, of lanes that read their own sub-block. -/
theorem subBlockForms_call (imm : BitVec 8) : ∀ e ∈ subBlockForms imm, ∀ (vl : VLen) (dst src1 : VReg) (src2 : Src),
    ∃ (op : Op) (dbl : Bool) (imm' : BitVec 8) (f : Fmt) (lanes : LaneOp f), ReadsOwnSubBlock lanes ∧
      exec (e vl dst src1 src2) = call (.nonLegacy op false dbl vl .plain dst src1 src2 imm') f lanes := by
  simp only [subBlockForms, List.forall_mem_cons]
  refine ⟨?_, ?_, ?_, ?_, ?_, ?_, ?_, nofun⟩ <;> intro vl dst src1 src2
  case refine_1 | refine_2 | refine_3 | refine_4 => exact ⟨_, _, _, _, _, readsOwnSubBlock_pairLanes _ _, rfl⟩
  case refine_5 | refine_6 => exact ⟨_, _, _, _, _, readsOwnSubBlock_addsubLanes _, rfl⟩
  case refine_7 => exact ⟨_, _, _, _, _, readsOwnSubBlock_dpLanes imm, rfl⟩

/-- A legacy form on sub-blocks likewise. -/
theorem legacySubBlockForms_call (imm : BitVec 8) : ∀ e ∈ legacySubBlockForms imm, ∀ (dst : VReg) (src : Src),
    ∃ (op : Op) (dbl : Bool) (imm' : BitVec 8) (f : Fmt) (lanes : LaneOp f), ReadsOwnSubBlock lanes ∧
      exec (e dst src) = call (.legacy op false dbl dst src imm') f lanes := by
  simp only [legacySubBlockForms, List.forall_mem_cons]
  refine ⟨?_, ?_, ?_, ?_, ?_, ?_, ?_, nofun⟩ <;> intro dst src
  case refine_1 | refine_2 | refine_3 | refine_4 => exact ⟨_, _, _, _, _, readsOwnSubBlock_pairLanes _ _, rfl⟩
  case refine_5 | refine_6 => exact ⟨_, _, _, _, _, readsOwnSubBlock_addsubLanes _, rfl⟩
  case refine_7 => exact ⟨_, _, _, _, _, readsOwnSubBlock_dpLanes imm, rfl⟩

/-- Settles O34: each form is one call of lanes that read their own sub-block, and a legacy form's destination is operand A. -/
theorem subBlocksAreIndependent : Obligations.SubBlocksAreIndependent := by
  constructor
  · intro imm e he s s' t t' vl dst src1 src2 j hmasked hcfg hmx ha hb ht ht'
    obtain ⟨op, dbl, imm', f, lanes, hlanes, hexec⟩ := subBlockForms_call imm e he vl dst src1 src2
    rw [hexec] at ht ht'
    exact call_block_congr hlanes rfl rfl (.inl rfl) rfl rfl hmasked hcfg hmx ha hb ht ht'
  · intro imm e he s s' t t' dst src j hmasked hcfg hmx ha hb ht ht'
    obtain ⟨op, dbl, imm', f, lanes, hlanes, hexec⟩ := legacySubBlockForms_call imm e he dst src
    rw [hexec] at ht ht'
    exact call_block_congr hlanes rfl rfl (.inr rfl) rfl rfl hmasked hcfg hmx ha hb ht ht'

end Sys2Proof.Machine

/-!
PROOF. Subtraction as addition, and division by zero (spec/43_elementwise.md R98, R100; the flags of R209).
-/

namespace Sys2Proof.Machine

/-! ### Subtraction -/

@[simp] theorem isNaN_negate (f : Fmt) (x : BitVec f.w) : isNaN f (negate f x) = isNaN f x := by simp [isNaN]

theorem negate_zeroOf (f : Fmt) (s : Bool) : negate f (zeroOf f s) = zeroOf f (!s) := pattern_ext (by simp) (by simp)

/-- DAZ replaces a denormal by a zero of its own sign, so it commutes with the inversion of the sign (R66). -/
theorem dazW_negate (f : Fmt) (st : Status) (x : BitVec f.w) : dazW f st (negate f x) = negate f (dazW f st x) := by
  unfold dazW
  rw [isDenormal_negate, sign_negate]
  split
  · exact (negate_zeroOf f _).symm
  · rfl

section NoNaN

variable {f : Fmt} {a b : BitVec f.w} (p : Params) (st : Status) (ha : isNaN f a = false) (hb : isNaN f b = false)

include ha hb

theorem isNaN_or_dazW_of_not_isNaN : ¬(isNaN f (dazW f st a) || isNaN f (dazW f st b)) = true := by
  rw [isNaN_dazW, isNaN_dazW, ha, hb]
  exact Bool.false_ne_true

theorem addW_of_not_isNaN : addW p f st a b = addNumbers p f st (dazW f st a) (dazW f st b) :=
  if_neg (isNaN_or_dazW_of_not_isNaN st ha hb)

theorem subW_of_not_isNaN : subW p f st a b = addNumbers p f st (dazW f st a) (negate f (dazW f st b)) :=
  if_neg (isNaN_or_dazW_of_not_isNaN st ha hb)

end NoNaN

/-- Settles O43: past the NaN check both are the addition of the numbers, and DAZ commutes with the inversion of the sign. -/
theorem subtractIsAddOfNegated : Obligations.SubtractIsAddOfNegated := by
  intro p f st a b ha hb
  have hnb : isNaN f (negate f b) = false := (isNaN_negate f b).trans hb
  rw [subW_of_not_isNaN p st ha hb, addW_of_not_isNaN p st ha hnb, dazW_negate]

/-! ### Division by zero -/

theorem isZero_of_isInf {f : Fmt} {x : BitVec f.w} (h : isInf f x = true) : isZero f x = false := by
  obtain ⟨he, -⟩ := isInf_iff.1 h
  simp [isZero, he, f.expOnes_ne_zero]

/-- What a zero divisor gives to every dividend that is neither a NaN nor a zero (R100). -/
theorem divW_of_isZero {f : Fmt} {st : Status} {a b : BitVec f.w} (p : Params) (hdaz : st.daz = false) (hb : isZero f b = true)
    (hna : isNaN f a = false) (hza : isZero f a = false) :
    divW p f st a b =
      { val := infOf f (sign f a != sign f b)
        flags := if isInf f a then 0 else flagZE ||| flagIf (isDenormal f a && p.deWithZe) flagDE } := by
  have hib : isInf f b = false := isInf_of_expField_eq_zero (isZero_iff.1 hb).1
  simp [divW, dazW_of_not_daz hdaz, hna, isNaN_of_isZero hb, hza, hib, hb]

/-- Settles O44: the dividend is a number that is not zero, and the flags are by whether it is an infinity. -/
theorem divideByZero : Obligations.DivideByZero := by
  intro p f st a b hb hdaz
  constructor
  · intro hfin hza
    rw [divW_of_isZero p hdaz hb (isNaN_of_isFinite hfin) hza, isInf_of_isFinite hfin]
    cases isDenormal f a && p.deWithZe <;> rfl
  · intro hinf
    rw [divW_of_isZero p hdaz hb (isNaN_of_isInf hinf) (isZero_of_isInf hinf), hinf]
    rfl

end Sys2Proof.Machine

/-!
PROOF. Minimum and maximum (spec/44_minmax_sqrt_scalef.md R133): each is the selection by `scaled`, whose order on patterns that are
no NaN is that of the real values, the infinities outside the finite numbers.
-/

namespace Sys2Proof.Machine

/-! ### The selection between two operands -/

theorem selectW_of_isNaN {f : Fmt} {st : Status} {a b : BitVec f.w} (pick : ℤ → ℤ → Bool)
    (h : isNaN f (dazW f st a) = true ∨ isNaN f (dazW f st b) = true) :
    selectW f st pick a b = { val := dazW f st b, flags := flagIE } :=
  if_pos (Bool.or_eq_true_iff.2 h)

section Numbers

variable {f : Fmt} {st : Status} {a b : BitVec f.w} (ha : isNaN f (dazW f st a) = false) (hb : isNaN f (dazW f st b) = false)

include ha hb

theorem selectW_of_not_isNaN (pick : ℤ → ℤ → Bool) :
    selectW f st pick a b =
      { val := if pick (scaled f (dazW f st a)) (scaled f (dazW f st b)) then dazW f st a else dazW f st b
        flags := deFlag f (dazW f st a) (dazW f st b) } :=
  if_neg (by rw [ha, hb, Bool.or_self]; exact Bool.false_ne_true)

theorem selectW_flags_of_not_isNaN (pick : ℤ → ℤ → Bool) :
    (selectW f st pick a b).flags = deFlag f (dazW f st a) (dazW f st b) := by
  rw [selectW_of_not_isNaN ha hb]

/-! ### Minimum and maximum of two numbers -/

theorem minW_val_of_lessThan (p : Params) (h : LessThan f (dazW f st a) (dazW f st b)) : (minW p f st a b).val = dazW f st a := by
  rw [minW, selectW_of_not_isNaN ha hb]
  exact if_pos (decide_eq_true ((lessThan_iff_scaled_lt ha hb).1 h))

theorem minW_val_of_not_lessThan (p : Params) (h : ¬LessThan f (dazW f st a) (dazW f st b)) :
    (minW p f st a b).val = dazW f st b := by
  rw [minW, selectW_of_not_isNaN ha hb]
  exact if_neg fun hpick => h ((lessThan_iff_scaled_lt ha hb).2 (of_decide_eq_true hpick))

theorem maxW_val_of_greaterThan (p : Params) (h : LessThan f (dazW f st b) (dazW f st a)) :
    (maxW p f st a b).val = dazW f st a := by
  rw [maxW, selectW_of_not_isNaN ha hb]
  exact if_pos (decide_eq_true ((lessThan_iff_scaled_lt hb ha).1 h))

theorem maxW_val_of_not_greaterThan (p : Params) (h : ¬LessThan f (dazW f st b) (dazW f st a)) :
    (maxW p f st a b).val = dazW f st b := by
  rw [maxW, selectW_of_not_isNaN ha hb]
  exact if_neg fun hpick => h ((lessThan_iff_scaled_lt hb ha).2 (of_decide_eq_true hpick))

end Numbers

/-- Settles O45: a NaN on either side gives operand B, and of two numbers the order of the real values picks. -/
theorem minimumAndMaximum : Obligations.MinimumAndMaximum := by
  intro p f st x y a b
  refine ⟨fun h => ⟨selectW_of_isNaN _ h, selectW_of_isNaN _ h⟩, fun ha hb => ⟨?_, ?_, ?_, ?_, ?_, ?_⟩⟩
  · exact minW_val_of_lessThan ha hb p
  · exact minW_val_of_not_lessThan ha hb p
  · exact maxW_val_of_greaterThan ha hb p
  · exact maxW_val_of_not_greaterThan ha hb p
  · exact selectW_flags_of_not_isNaN ha hb _
  · exact selectW_flags_of_not_isNaN ha hb _

end Sys2Proof.Machine

/-!
PROOF. The masks of the masked reduction (spec/46_dot_product.md R188, R189).
-/

namespace Sys2Proof.Machine

/-! ### The sum of two zeros -/

/-- Two zeros of one sign add to that zero under every rounding mode, and set no flag (R65, R97). -/
theorem addW_zeroOf_self (p : Params) (f : Fmt) (st : Status) (s : Bool) :
    addW p f st (zeroOf f s) (zeroOf f s) = { val := zeroOf f s, flags := 0 } := by
  have hz : isZero f (zeroOf f s) = true := isZero_zeroOf f s
  have hnan : isNaN f (zeroOf f s) = false := isNaN_of_isZero hz
  have hinf : isInf f (zeroOf f s) = false := isInf_of_isFinite (isFinite_zeroOf f s)
  have hscaled : scaled f (zeroOf f s) = 0 := by
    rw [scaled, (sig_eq_zero_iff f _).2 hz]
    simp
  rw [addW_of_not_isNaN p st hnan hnan, dazW_of_isZero hz]
  simp [addNumbers, zeroSum, deFlag, flagIf, hinf, hscaled]

/-- The result of a lane that is not computed: `+0.0`, with no flag (R188). -/
def notComputed : LaneRes .f32 := { val := 0#32, flags := 0 }

/-- The sum of two lanes that are not computed is as one that is not computed. -/
theorem addW_notComputed (p : Params) (st : Status) : addW p .f32 st notComputed.val notComputed.val = notComputed :=
  addW_zeroOf_self p .f32 st false

/-! ### The two nibbles of the mask -/

/-- A field of the mask that is zero has no bit set. -/
theorem getLsbD_of_extractLsb'_eq_zero {imm : BitVec 8} {start len l : Nat} (h : imm.extractLsb' start len = 0) (hl : l < len) :
    imm.getLsbD (start + l) = false := by
  have hbit := congrArg (BitVec.getLsbD · l) h
  simpa [BitVec.getLsbD_extractLsb', hl] using hbit

section Steps

variable {imm : BitVec 8} {p : Params} {st : Status} {a b a' b' : VecWord} {j l : Nat}

/-- Step 1 in a lane that the high nibble does not select (R188). -/
theorem dpProduct_of_not_selected (h : imm.getLsbD (4 + l) = false) : dpProduct imm p st a b j l = notComputed :=
  if_neg (Bool.eq_false_iff.1 h)

/-- Step 5 in a lane that the low nibble does not select (R188). -/
theorem dpTotal_of_not_selected (h : imm.getLsbD l = false) : dpTotal imm p st a b j l = notComputed :=
  if_neg (Bool.eq_false_iff.1 h)

/-! ### No product selected -/

theorem dpPairSum_of_products (h : ∀ l < 4, dpProduct imm p st a b j l = notComputed) (hl : l < 4) :
    dpPairSum imm p st a b j l = notComputed := by
  rw [dpPairSum, h _ (swapPairs_lt l), h l hl, addW_notComputed]

theorem dpTotal_of_products (h : ∀ l < 4, dpProduct imm p st a b j l = notComputed) (hl : l < 4) :
    dpTotal imm p st a b j l = notComputed := by
  cases hsel : imm.getLsbD l with
  | true =>
    rw [dpTotal, if_pos hsel, dpPairSum_of_products h hl, dpPairSum_of_products h (swapHalves_lt l), addW_notComputed]
  | false => exact dpTotal_of_not_selected hsel

/-! ### Two operand pairs with the same products -/

theorem dpPairSum_congr (h : ∀ l < 4, dpProduct imm p st a' b' j l = dpProduct imm p st a b j l) (hl : l < 4) :
    dpPairSum imm p st a' b' j l = dpPairSum imm p st a b j l := by
  rw [dpPairSum, dpPairSum, h _ (swapPairs_lt l), h l hl]

theorem dpTotal_congr (h : ∀ l < 4, dpProduct imm p st a' b' j l = dpProduct imm p st a b j l) (hl : l < 4) :
    dpTotal imm p st a' b' j l = dpTotal imm p st a b j l := by
  rw [dpTotal, dpTotal, dpPairSum_congr h hl, dpPairSum_congr h (swapHalves_lt l)]

/-- The operands of a product that the high nibble does not select are not read (R188). -/
theorem dpProduct_congr (h : imm.getLsbD (4 + l) = true →
      lane .f32 a' (4 * j + l) = lane .f32 a (4 * j + l) ∧ lane .f32 b' (4 * j + l) = lane .f32 b (4 * j + l)) :
    dpProduct imm p st a' b' j l = dpProduct imm p st a b j l := by
  cases hsel : imm.getLsbD (4 + l) with
  | true =>
    obtain ⟨ha, hb⟩ := h hsel
    rw [dpProduct, dpProduct, ha, hb]
  | false => rw [dpProduct_of_not_selected hsel, dpProduct_of_not_selected hsel]

end Steps

/-- Settles O50: the low nibble stands at step 5 alone, and the operands reach the sums through the selected products alone, of
which none leaves sums of `+0.0` and `+0.0`. -/
theorem dotProductMasks : Obligations.DotProductMasks := by
  intro imm p st a b a' b' i
  have hl : i % 4 < 4 := Nat.mod_lt _ (by decide)
  refine ⟨fun hlow => ?_, fun hhigh => ?_, fun hagree => ?_⟩
  · have hsel : imm.getLsbD (i % 4) = false := by
      simpa only [Nat.zero_add] using getLsbD_of_extractLsb'_eq_zero hlow hl
    exact congrArg LaneRes.val (dpTotal_of_not_selected hsel)
  · have hproducts : ∀ l < 4, dpProduct imm p st a b (i / 4) l = notComputed := fun l hl =>
      dpProduct_of_not_selected (getLsbD_of_extractLsb'_eq_zero hhigh hl)
    simp only [dpLanes, hproducts _ hl, dpPairSum_of_products hproducts hl, dpTotal_of_products hproducts hl]
    rfl
  · have hproducts : ∀ l < 4, dpProduct imm p st a' b' (i / 4) l = dpProduct imm p st a b (i / 4) l := fun l hl =>
      dpProduct_congr (hagree l hl)
    simp only [dpLanes, hproducts _ hl, dpPairSum_congr hproducts hl, dpTotal_congr hproducts hl]

end Sys2Proof.Machine

/-!
PROOF. The approximate reciprocal and reciprocal square root (spec/47_approx.md R194, R195): the tests that hold a free answer to
the rules, read as inequalities of rational numbers, the answer that stands in for one that fails them, and the special cases.
-/

namespace Sys2Proof.Machine

/-! ### The pattern below the sign -/

/-- The mask that leaves the pattern below the sign. -/
theorem and_magMask (x : BitVec 32) : x &&& 0x7FFFFFFF#32 = BitVec.ofNat 32 (magBits .f32 x) := by
  have hlt : magBits .f32 x < 2 ^ 32 := (Nat.mod_lt _ (Nat.two_pow_pos 31)).trans (by decide)
  have hmod : x.toNat &&& 0x7FFFFFFF = magBits .f32 x := Nat.and_two_pow_sub_one_eq_mod x.toNat 31
  refine BitVec.eq_of_toNat_eq ?_
  rw [BitVec.toNat_ofNat, Nat.mod_eq_of_lt hlt]
  exact hmod

theorem magBits_lt (f : Fmt) (x : BitVec f.w) : magBits f x < 2 ^ (f.w - 1) := Nat.mod_lt _ (Nat.two_pow_pos _)

theorem sign_zeroOf_or_magMask (s : Bool) (x : BitVec 32) : sign .f32 (zeroOf .f32 s ||| (x &&& 0x7FFFFFFF#32)) = s := by
  rw [and_magMask]
  exact sign_zeroOf_or .f32 s (magBits_lt .f32 x)

theorem magBits_zeroOf_or_magMask (s : Bool) (x : BitVec 32) :
    magBits .f32 (zeroOf .f32 s ||| (x &&& 0x7FFFFFFF#32)) = magBits .f32 x := by
  rw [and_magMask]
  exact magBits_zeroOf_or .f32 s (magBits_lt .f32 x)

/-- The masked pattern is that of the sign `+`. -/
theorem magMask_eq_or (x : BitVec 32) : x &&& 0x7FFFFFFF#32 = zeroOf .f32 false ||| (x &&& 0x7FFFFFFF#32) :=
  BitVec.zero_or.symm

theorem negate_infOf (f : Fmt) (s : Bool) : negate f (infOf f s) = infOf f (!s) := by cases f <;> cases s <;> rfl

section Congr

variable {f : Fmt} {x y : BitVec f.w} (h : magBits f x = magBits f y)

include h

theorem expField_congr : expField f x = expField f y := by rw [expField_eq, h, ← expField_eq]

theorem frac_congr : frac f x = frac f y := by rw [frac_eq, h, ← frac_eq]

theorem isFinite_congr : isFinite f x = isFinite f y := by rw [isFinite, expField_congr h, isFinite]

theorem isZero_congr : isZero f x = isZero f y := by rw [isZero, expField_congr h, frac_congr h, isZero]

theorem isDenormal_congr : isDenormal f x = isDenormal f y := by rw [isDenormal, expField_congr h, frac_congr h, isDenormal]

theorem abs_realOf_congr : |realOf f x| = |realOf f y| := by
  rw [abs_realOf, abs_realOf, sig_eq, sig_eq, unitExp_eq, unitExp_eq, expField_congr h, frac_congr h]

end Congr

/-! ### Positive normal numbers -/

theorem expField_ne_zero_iff {f : Fmt} {x : BitVec f.w} : expField f x ≠ 0 ↔ isZero f x = false ∧ isDenormal f x = false := by
  simp only [isZero, isDenormal, Bool.and_eq_false_iff, beq_eq_false_iff_ne, bne_eq_false_iff_eq]
  tauto

theorem isPosNormal_iff {x : BitVec 32} :
    isPosNormal x = true ↔ sign .f32 x = false ∧ expField .f32 x ≠ 0 ∧ isFinite .f32 x = true := by
  simp [isPosNormal, isFinite, and_assoc]

/-- A normal number of either sign, its sign masked off. -/
theorem isPosNormal_magMask {b : BitVec 32} (hfin : isFinite .f32 b = true) (hz : isZero .f32 b = false)
    (hd : isDenormal .f32 b = false) : isPosNormal (b &&& 0x7FFFFFFF#32) = true := by
  have hmag := magBits_zeroOf_or_magMask false b
  rw [magMask_eq_or, isPosNormal_iff, sign_zeroOf_or_magMask, expField_congr hmag, isFinite_congr hmag]
  exact ⟨rfl, expField_ne_zero_iff.2 ⟨hz, hd⟩, hfin⟩

/-- A normal number's significand has its hidden bit. -/
theorem two_pow_le_sig {f : Fmt} {x : BitVec f.w} (h : expField f x ≠ 0) : 2 ^ (f.p - 1) ≤ sig f x := by
  rw [sig_eq, if_neg h]
  exact Nat.le_add_right _ _

/-- A natural number of at most `b` bits, in any unit. -/
theorem mul_zpow_lt {m b : ℕ} (h : m < 2 ^ b) (k : ℤ) : (m : ℚ) * 2 ^ k < 2 ^ ((b : ℤ) + k) := by
  have hcast : (m : ℚ) < 2 ^ (b : ℤ) := by exact_mod_cast h
  rw [zpow_add_two]
  exact mul_lt_mul_of_pos_right hcast (zpow_two_pos k)

theorem zpow_le_mul_zpow {m a : ℕ} (h : 2 ^ a ≤ m) (k : ℤ) : (2 : ℚ) ^ ((a : ℤ) + k) ≤ m * 2 ^ k := by
  have hcast : (2 : ℚ) ^ (a : ℤ) ≤ m := by exact_mod_cast h
  rw [zpow_add_two]
  exact mul_le_mul_of_nonneg_right hcast (zpow_two_pos k).le

/-- A number with no hidden bit lies below the normal range. -/
theorem abs_realOf_lt_of_expField_eq_zero {f : Fmt} {x : BitVec f.w} (h : expField f x = 0) : |realOf f x| < 2 ^ f.emin := by
  have hunit : unitExp f x = f.grid := by rw [unitExp_eq, h]; exact add_zero _
  have hsig : sig f x = frac f x := by rw [sig_eq, if_pos h, zero_add]
  have hexp : ((f.p - 1 : ℕ) : ℤ) + f.grid = f.emin := by rw [f.cast_p_sub_one, Fmt.grid]; ring
  rw [abs_realOf, hunit, hsig, ← hexp]
  exact mul_zpow_lt (frac_lt f x) f.grid

section PosNormal

variable {x : BitVec 32} (hx : isPosNormal x = true)

include hx

theorem sig_bounds_of_isPosNormal : 2 ^ 23 ≤ sig .f32 x ∧ sig .f32 x < 2 ^ 24 := by
  obtain ⟨-, hexp, -⟩ := isPosNormal_iff.1 hx
  exact ⟨two_pow_le_sig hexp, sig_lt .f32 x⟩

theorem unitExp_bounds_of_isPosNormal : -149 ≤ unitExp .f32 x ∧ unitExp .f32 x ≤ 104 := by
  obtain ⟨-, -, hfin⟩ := isPosNormal_iff.1 hx
  have hlow : -149 ≤ unitExp .f32 x := grid_le_unitExp .f32 x
  have hhigh : unitExp .f32 x + 24 - 1 ≤ 127 := unitExp_le_of_isFinite hfin
  omega

theorem realOf_of_isPosNormal : realOf .f32 x = (sig .f32 x : ℚ) * 2 ^ unitExp .f32 x := by
  obtain ⟨hsign, -, -⟩ := isPosNormal_iff.1 hx
  rw [realOf_eq, hsign, signFactor_false, one_mul]

theorem realOf_pos_of_isPosNormal : 0 < realOf .f32 x := by
  obtain ⟨hsig, -⟩ := sig_bounds_of_isPosNormal hx
  rw [realOf_of_isPosNormal hx]
  exact mul_pos (Nat.cast_pos.2 (by omega)) (zpow_two_pos _)

end PosNormal

/-- A number of at most `p` bits in the normal range is encoded exactly, by a positive normal pattern (R62). -/
theorem encodeReal_isPosNormal {m : ℕ} {k : ℤ} (hm : m < 2 ^ 24) (hlow : (2 : ℚ) ^ (-126 : ℤ) ≤ m * 2 ^ k)
    (hhigh : (m : ℚ) * 2 ^ k < 2 ^ (128 : ℤ)) :
    isPosNormal (encodeReal .f32 false m k) = true ∧ realOf .f32 (encodeReal .f32 false m k) = m * 2 ^ k := by
  have hm0 : m ≠ 0 := by
    rintro rfl
    rw [Nat.cast_zero, zero_mul] at hlow
    exact absurd hlow (not_le.2 (zpow_two_pos _))
  have hbits : m.log2 < 24 := (Nat.log2_lt hm0).2 hm
  have hbinade : -126 < ((m.log2 + 1 : ℕ) : ℤ) + k := by
    have hlt := hlow.trans_lt (mul_zpow_lt (Nat.lt_log2_self (n := m)) k)
    exact (zpow_lt_zpow_iff_right₀ one_lt_two).1 hlt
  have hunit : encodeUnit .f32 m k ≤ k := by
    have hdef : encodeUnit .f32 m k = max (k + (m.log2 : ℤ)) (-126) - 24 + 1 := rfl
    omega
  have hc : ((m * 2 ^ (k - encodeUnit .f32 m k).toNat : ℕ) : ℚ) * 2 ^ encodeUnit .f32 m k = m * 2 ^ k := by
    push_cast
    rw [mul_assoc, ← zpow_natCast, Int.toNat_of_nonneg (by omega), ← zpow_add_two, sub_add_cancel]
  obtain ⟨hfin, hsign, hreal, -⟩ := encodeReal_spec hc hhigh false
  rw [signFactor_false, one_mul] at hreal
  refine ⟨isPosNormal_iff.2 ⟨hsign, fun hexp => ?_, hfin⟩, hreal⟩
  have hlt := abs_realOf_lt_of_expField_eq_zero hexp
  rw [hreal] at hlt
  exact absurd ((le_abs_self _).trans_lt hlt) (not_lt.2 hlow)

/-! ### The tests over the integers -/

/-- A comparison with `b * 2^k`, its power of two on the side that keeps both natural numbers. -/
theorem mul_pow2_neg_lt_iff (a b : ℕ) (k : ℤ) : a * pow2 (-k) < b * pow2 k ↔ (a : ℚ) < b * 2 ^ k := by
  have hpos : (0 : ℚ) < pow2 (-k) := Nat.cast_pos.2 (pow2_pos _)
  rw [zpow_eq_pow2_div, ← mul_div_assoc, lt_div_iff₀ hpos]
  exact_mod_cast Iff.rfl

theorem mul_pow2_le_neg_iff (a b : ℕ) (k : ℤ) : b * pow2 k ≤ a * pow2 (-k) ↔ (b : ℚ) * 2 ^ k ≤ a := by
  rw [← not_lt, mul_pow2_neg_lt_iff, not_lt]

theorem mul_pow2_neg_le_iff (a b : ℕ) (k : ℤ) : a * pow2 (-k) ≤ b * pow2 k ↔ (a : ℚ) ≤ b * 2 ^ k := by
  have hpos : (0 : ℚ) < pow2 (-k) := Nat.cast_pos.2 (pow2_pos _)
  rw [zpow_eq_pow2_div, ← mul_div_assoc, le_div_iff₀ hpos]
  exact_mod_cast Iff.rfl

theorem reaches_iff_rat (m : ℕ) (k t : ℤ) : reaches m k t = true ↔ (2 : ℚ) ^ t ≤ m * 2 ^ k := by
  rw [reaches_iff, ← Rat.cast_le (K := ℝ)]
  push_cast
  rfl

/-- R194 (ii), multiplied by `real(x)`. -/
theorem rcpWithin_iff (x r : BitVec 32) :
    rcpWithin x r = true ↔ |(|realOf .f32 r| * |realOf .f32 x| - 1)| ≤ 3 / 2 ^ 13 := by
  let t := unitExp .f32 x + unitExp .f32 r
  have hpos : (0 : ℚ) < pow2 (-t) := Nat.cast_pos.2 (pow2_pos _)
  have hval : |realOf .f32 r| * |realOf .f32 x| - 1 =
      ((sig .f32 x * sig .f32 r * pow2 t : ℕ) - (pow2 (-t) : ℕ) : ℚ) / pow2 (-t) := by
    have hprod : |realOf .f32 r| * |realOf .f32 x| = sig .f32 x * sig .f32 r * 2 ^ t := by
      rw [abs_realOf, abs_realOf, zpow_add_two]
      ring
    rw [hprod, zpow_eq_pow2_div, sub_div, div_self hpos.ne', ← mul_div_assoc]
    push_cast
    rfl
  have hint : rcpWithin x r = true ↔
      ((((sig .f32 x * sig .f32 r * pow2 t : ℕ) : ℤ) - (pow2 (-t) : ℕ)).natAbs : ℚ) * 2 ^ 13 ≤ 3 * pow2 (-t) := by
    unfold rcpWithin
    simp only [decide_eq_true_eq, Int.natAbs_natCast]
    exact_mod_cast Iff.rfl
  rw [hint, hval, abs_div, abs_of_pos hpos, div_le_iff₀ hpos, Nat.cast_natAbs]
  push_cast
  constructor <;> intro h <;> linarith

theorem rcpMayFlush_iff (x : BitVec 32) : rcpMayFlush x = true ↔ 2 ^ 139 < 8195 * |realOf .f32 x| := by
  rw [rcpMayFlush, decide_eq_true_iff, mul_pow2_neg_lt_iff, abs_realOf, ← mul_assoc]
  push_cast
  rfl

theorem rcpMustFlush_iff (x : BitVec 32) : rcpMustFlush x = true ↔ 2 ^ 139 < 8189 * |realOf .f32 x| := by
  rw [rcpMustFlush, decide_eq_true_iff, mul_pow2_neg_lt_iff, abs_realOf, ← mul_assoc]
  push_cast
  rfl

/-- R195's bound, multiplied by `sqrt(real(x))` and squared. -/
theorem rsqrtWithin_iff (x r : BitVec 32) :
    rsqrtWithin x r = true ↔
      8189 ^ 2 ≤ realOf .f32 r ^ 2 * |realOf .f32 x| * 2 ^ 26 ∧ realOf .f32 r ^ 2 * |realOf .f32 x| * 2 ^ 26 ≤ 8195 ^ 2 := by
  let t := unitExp .f32 x + 2 * unitExp .f32 r
  have hprod : realOf .f32 r ^ 2 * |realOf .f32 x| * 2 ^ 26 = ((sig .f32 x * sig .f32 r ^ 2 * 2 ^ 26 : ℕ) : ℚ) * 2 ^ t := by
    rw [← sq_abs, abs_realOf, abs_realOf, zpow_add_two, two_mul, zpow_add_two]
    push_cast
    ring
  have hint : rsqrtWithin x r = true ↔
      8189 ^ 2 * pow2 (-t) ≤ sig .f32 x * sig .f32 r ^ 2 * 2 ^ 26 * pow2 t ∧
        sig .f32 x * sig .f32 r ^ 2 * 2 ^ 26 * pow2 t ≤ 8195 ^ 2 * pow2 (-t) := by
    unfold rsqrtWithin
    simp only [Bool.and_eq_true, decide_eq_true_eq, mul_right_comm _ (pow2 _) (2 ^ 26)]
    rfl
  rw [hint, hprod, mul_pow2_neg_le_iff, mul_pow2_le_neg_iff]
  push_cast
  rfl

/-! ### The reciprocal of a positive normal number -/

/-- The answers that R194 allows on a positive normal number `x`, its inequalities multiplied by `x`. -/
structure IsReciprocal (x : ℚ) (r : BitVec 32) : Prop where
  finite : isFinite .f32 r = true
  not_denormal : isDenormal .f32 r = false
  near : isZero .f32 r = false → |(|realOf .f32 r| * x - 1)| ≤ 3 / 2 ^ 13
  zero_only : isZero .f32 r = true → 2 ^ 139 < 8195 * x
  zero_if : 2 ^ 139 < 8189 * x → isZero .f32 r = true

theorem isReciprocal_zero {x : ℚ} (h : 2 ^ 139 < 8195 * x) : IsReciprocal x 0#32 where
  finite := rfl
  not_denormal := rfl
  near hz := absurd hz (by decide)
  zero_only _ := h
  zero_if _ := rfl

theorem isReciprocal_of_isPosNormal {x : ℚ} {r : BitVec 32} (hr : isPosNormal r = true)
    (hnear : |(|realOf .f32 r| * x - 1)| ≤ 3 / 2 ^ 13) (hflush : ¬2 ^ 139 < 8189 * x) : IsReciprocal x r := by
  obtain ⟨-, hexp, hfin⟩ := isPosNormal_iff.1 hr
  obtain ⟨hz, hd⟩ := expField_ne_zero_iff.1 hexp
  exact ⟨hfin, hd, fun _ => hnear, fun h => absurd (hz.symm.trans h) Bool.false_ne_true, fun h => absurd h hflush⟩

/-- What the test lets through is what R194 allows. -/
theorem isReciprocal_of_rcpAllowed {x r : BitVec 32} (h : rcpAllowed x r = true) : IsReciprocal |realOf .f32 x| r := by
  unfold rcpAllowed at h
  split at h
  · rename_i hr
    subst hr
    exact isReciprocal_zero ((rcpMayFlush_iff x).1 h)
  · rw [Bool.and_eq_true, Bool.and_eq_true, Bool.not_eq_true', ← Bool.not_eq_true, rcpMustFlush_iff] at h
    obtain ⟨⟨hr, hnear⟩, hflush⟩ := h
    exact isReciprocal_of_isPosNormal hr ((rcpWithin_iff x r).1 hnear) hflush

/-- The integer quotient of a power of two by a significand, in the unit of the reciprocal: at most `1/x`, and short of it by less
than a part in `2^20`. -/
theorem quotient_mul_bounds {d : ℕ} (hd : 0 < d) (hd' : d < 2 ^ 24) (u : ℤ) :
    let y := ((2 ^ 44 / d : ℕ) : ℚ) * 2 ^ (-44 - u)
    1 - 1 / 2 ^ 20 < y * (d * 2 ^ u) ∧ y * (d * 2 ^ u) ≤ 1 := by
  have hval : ((2 ^ 44 / d : ℕ) : ℚ) * 2 ^ (-44 - u) * (d * 2 ^ u) = (2 ^ 44 / d * d : ℕ) / 2 ^ 44 := by
    have hexp : (2 : ℚ) ^ (-44 - u) * 2 ^ u = 1 / 2 ^ 44 := by
      rw [← zpow_add_two, sub_add_cancel]
      norm_num
    rw [← mul_one_div, ← hexp]
    push_cast
    ring
  have hle : 2 ^ 44 / d * d ≤ 2 ^ 44 := Nat.div_mul_le_self _ _
  have hgt : 2 ^ 44 < 2 ^ 44 / d * d + 2 ^ 24 := (Nat.lt_div_mul_add hd).trans (by omega)
  have hle' : ((2 ^ 44 / d * d : ℕ) : ℚ) ≤ 2 ^ 44 := by exact_mod_cast hle
  have hgt' : (2 : ℚ) ^ 44 < (2 ^ 44 / d * d : ℕ) + 2 ^ 24 := by exact_mod_cast hgt
  simp only [hval]
  rw [lt_div_iff₀ (by positivity), div_le_one (by positivity)]
  exact ⟨by linarith, hle'⟩

/-- The answer that stands in is one that R194 allows. -/
theorem isReciprocal_rcpFallback {x : BitVec 32} (hx : isPosNormal x = true) :
    IsReciprocal |realOf .f32 x| (rcpFallback x) := by
  obtain ⟨hsig, hsig'⟩ := sig_bounds_of_isPosNormal hx
  obtain ⟨hunit, -⟩ := unitExp_bounds_of_isPosNormal hx
  obtain ⟨hlow, hhigh⟩ := quotient_mul_bounds (by omega) hsig' (unitExp .f32 x)
  rw [← abs_realOf] at hlow hhigh
  have hpos : 0 < |realOf .f32 x| := abs_pos.2 (realOf_pos_of_isPosNormal hx).ne'
  have hq : 2 ^ 44 / sig .f32 x < 2 ^ 22 := (Nat.div_lt_iff_lt_mul (by omega)).2 (by omega)
  unfold rcpFallback
  simp only
  generalize 2 ^ 44 / sig .f32 x = q at *
  split
  · rename_i hreach
    have hmin : (2 : ℚ) ^ (-126 : ℤ) ≤ q * 2 ^ (-44 - unitExp .f32 x) := (reaches_iff_rat q _ _).1 hreach
    have hmax : (q : ℚ) * 2 ^ (-44 - unitExp .f32 x) < 2 ^ (128 : ℤ) :=
      (mul_zpow_lt hq _).trans_le (zpow_le_zpow_right₀ one_le_two (by omega))
    obtain ⟨hnormal, hreal⟩ := encodeReal_isPosNormal (by omega) hmin hmax
    refine isReciprocal_of_isPosNormal hnormal ?_ ?_
    · rw [hreal, abs_of_nonneg ((zpow_two_pos _).le.trans hmin), abs_le]
      constructor <;> linarith
    · have h := (mul_le_mul_of_nonneg_right hmin hpos.le).trans hhigh
      norm_num at h ⊢
      linarith
  · rename_i hreach
    have hmin : (q : ℚ) * 2 ^ (-44 - unitExp .f32 x) < 2 ^ (-126 : ℤ) :=
      not_le.1 (mt (reaches_iff_rat q _ _).2 hreach)
    refine isReciprocal_zero ?_
    have h := hlow.trans (mul_lt_mul_of_pos_right hmin hpos)
    norm_num at h ⊢
    linarith

/-- RCP32 has R194's properties, whatever the free function answers. -/
theorem isReciprocal_rcp32 {x : BitVec 32} (hx : isPosNormal x = true) : IsReciprocal |realOf .f32 x| (rcp32 x) := by
  unfold rcp32
  split
  · rename_i hallowed
    exact isReciprocal_of_rcpAllowed hallowed
  · exact isReciprocal_rcpFallback hx

theorem IsReciprocal.congr {x : ℚ} {r r' : BitVec 32} (h : IsReciprocal x r) (hmag : magBits .f32 r' = magBits .f32 r) :
    IsReciprocal x r' := by
  obtain ⟨hfin, hd, hnear, honly, hif⟩ := h
  rw [← isZero_congr hmag] at hnear honly hif
  rw [← abs_realOf_congr hmag] at hnear
  exact ⟨(isFinite_congr hmag).trans hfin, (isDenormal_congr hmag).trans hd, hnear, honly, hif⟩

/-! ### The reciprocal, case by case -/

theorem isNaN_of_isZero_or_isDenormal {f : Fmt} {x : BitVec f.w} (h : isZero f x = true ∨ isDenormal f x = true) :
    isNaN f x = false :=
  isNaN_of_expField_eq_zero (h.elim (fun hz => (isZero_iff.1 hz).1) fun hd => (isDenormal_iff.1 hd).1)

theorem rcpLane_of_isNaN {b : BitVec 32} (h : isNaN .f32 b = true) : rcpLane b = quiet .f32 b := if_pos h

theorem rcpLane_of_isZero_or_isDenormal {b : BitVec 32} (h : isZero .f32 b = true ∨ isDenormal .f32 b = true) :
    rcpLane b = infOf .f32 (sign .f32 b) := by
  simp [rcpLane, isNaN_of_isZero_or_isDenormal h, h]

theorem rcpLane_of_isInf {b : BitVec 32} (h : isInf .f32 b = true) : rcpLane b = zeroOf .f32 (sign .f32 b) := by
  simp [rcpLane, isNaN_of_isInf h, isZero_of_isInf h, isDenormal_of_isInf h, h]

theorem rcpLane_of_normal {b : BitVec 32} (hfin : isFinite .f32 b = true) (hz : isZero .f32 b = false)
    (hd : isDenormal .f32 b = false) :
    rcpLane b = zeroOf .f32 (sign .f32 b) ||| (rcp32 (b &&& 0x7FFFFFFF#32) &&& 0x7FFFFFFF#32) := by
  simp [rcpLane, isNaN_of_isFinite hfin, hz, hd, isInf_of_isFinite hfin]

/-- The sign carries over, and the magnitude does not depend on it. -/
theorem rcpLane_negate {b : BitVec 32} (hnan : isNaN .f32 b = false) : rcpLane (negate .f32 b) = negate .f32 (rcpLane b) := by
  have hmask : negate .f32 b &&& 0x7FFFFFFF#32 = b &&& 0x7FFFFFFF#32 := by rw [and_magMask, and_magMask, magBits_negate]
  by_cases hsmall : isZero .f32 b = true ∨ isDenormal .f32 b = true
  · rw [rcpLane_of_isZero_or_isDenormal hsmall, rcpLane_of_isZero_or_isDenormal (by simpa using hsmall), sign_negate, negate_infOf]
  · obtain ⟨hz, hd⟩ : isZero .f32 b = false ∧ isDenormal .f32 b = false := by simpa using hsmall
    by_cases hinf : isInf .f32 b = true
    · rw [rcpLane_of_isInf hinf, rcpLane_of_isInf (by simpa using hinf), sign_negate, negate_zeroOf]
    · have hfin : isFinite .f32 b = true := isFinite_of_not_isInf hnan (Bool.not_eq_true _ ▸ hinf)
      rw [rcpLane_of_normal hfin hz hd,
        rcpLane_of_normal ((isFinite_congr (magBits_negate .f32 b)).trans hfin) (by simpa using hz) (by simpa using hd), hmask,
        sign_negate]
      refine pattern_ext ?_ ?_
      · rw [sign_negate, sign_zeroOf_or_magMask, sign_zeroOf_or_magMask]
      · rw [magBits_negate, magBits_zeroOf_or_magMask, magBits_zeroOf_or_magMask]

/-- On a normal number of either sign the magnitude is what R194 allows on the operand's magnitude. -/
theorem isReciprocal_rcpLane {b : BitVec 32} (hfin : isFinite .f32 b = true) (hz : isZero .f32 b = false)
    (hd : isDenormal .f32 b = false) : IsReciprocal |realOf .f32 b| (rcpLane b) := by
  have habs : |realOf .f32 (b &&& 0x7FFFFFFF#32)| = |realOf .f32 b| := by
    rw [magMask_eq_or]
    exact abs_realOf_congr (magBits_zeroOf_or_magMask false b)
  rw [rcpLane_of_normal hfin hz hd, ← habs]
  exact (isReciprocal_rcp32 (isPosNormal_magMask hfin hz hd)).congr (magBits_zeroOf_or_magMask _ _)

/-- A distance from `1/x`, relative to it, is one from 1 when multiplied by `x`. -/
theorem abs_sub_one_div_le_iff {x : ℚ} (hx : 0 < x) (r e : ℚ) : |r - 1 / x| ≤ e * (1 / x) ↔ |r * x - 1| ≤ e := by
  have hscale : r - 1 / x = (r * x - 1) / x := by field_simp
  rw [hscale, abs_div, abs_of_pos hx, mul_one_div, div_le_div_iff_of_pos_right hx]

/-- Settles O51: the special cases are branches of the lane, and on a normal number the answer is one that R194 allows. -/
theorem reciprocalBound : Obligations.ReciprocalBound := by
  intro b
  refine ⟨rcpLane_of_isNaN, rcpLane_of_isZero_or_isDenormal, rcpLane_of_isInf, rcpLane_negate, fun hfin hz hd => ?_⟩
  intro x r
  have hx : 0 < x := abs_pos.2 (mt (realOf_eq_zero_iff .f32 b).1 (Bool.not_eq_true _ ▸ hz))
  obtain ⟨hfin', hd', hnear, honly, hif⟩ := isReciprocal_rcpLane hfin hz hd
  refine ⟨?_, hfin', hd', fun h => ?_, fun h => ?_, fun h => hif ?_⟩
  · rw [rcpLane_of_normal hfin hz hd, sign_zeroOf_or_magMask]
  · rw [abs_sub_one_div_le_iff hx]
    exact (hnear h).trans (by norm_num)
  · have := honly h
    rw [div_lt_iff₀ hx]
    norm_num at this ⊢
    linarith
  · rw [div_lt_iff₀ hx] at h
    norm_num at h ⊢
    linarith

/-! ### The reciprocal square root of a positive normal number -/

/-- The answers that R195 allows on a positive normal number `x`, the bound multiplied by `sqrt(x)` and squared. -/
structure IsReciprocalRoot (x : ℚ) (r : BitVec 32) : Prop where
  normal : isPosNormal r = true
  ge : 8189 ^ 2 ≤ realOf .f32 r ^ 2 * x * 2 ^ 26
  le : realOf .f32 r ^ 2 * x * 2 ^ 26 ≤ 8195 ^ 2

theorem isReciprocalRoot_of_rsqrtAllowed {x r : BitVec 32} (h : rsqrtAllowed x r = true) : IsReciprocalRoot |realOf .f32 x| r := by
  rw [rsqrtAllowed, Bool.and_eq_true, rsqrtWithin_iff] at h
  obtain ⟨hr, hge, hle⟩ := h
  exact ⟨hr, hge, hle⟩

/-- The root of an integer quotient has at least 19 bits, and its square times the divisor falls short of the dividend by less than
the next integer's. -/
theorem sqrt_quotient_bounds {d : ℕ} (hd : 2 ^ 23 ≤ d) (hd' : d ≤ 2 ^ 25) :
    let s := (2 ^ 64 / d).sqrt
    2 ^ 19 ≤ s ∧ s < 2 ^ 21 ∧ s ^ 2 * d ≤ 2 ^ 64 ∧ 2 ^ 64 < (s + 1) ^ 2 * d := by
  have hpos : 0 < d := by omega
  have hlow : 2 ^ 39 ≤ 2 ^ 64 / d := (Nat.le_div_iff_mul_le hpos).2 (by omega)
  have hhigh : 2 ^ 64 / d ≤ 2 ^ 41 := Nat.div_le_of_le_mul (by omega)
  refine ⟨Nat.le_sqrt'.2 (by omega), Nat.sqrt_lt'.2 (by omega), ?_, ?_⟩
  · exact (Nat.le_div_iff_mul_le hpos).1 (Nat.sqrt_le' _)
  · exact (Nat.div_lt_iff_lt_mul hpos).1 (Nat.lt_succ_sqrt' _)

/-- The square of a root in the unit of the reciprocal root, times the operand. -/
theorem sq_root_mul_eq (s d : ℕ) (v : ℤ) :
    ((s : ℚ) * 2 ^ (-32 - v)) ^ 2 * (d * 2 ^ (2 * v)) = ((s ^ 2 * d : ℕ) : ℚ) / 2 ^ 64 := by
  have hexp : ((2 : ℚ) ^ (-32 - v)) ^ 2 * 2 ^ (2 * v) = 1 / 2 ^ 64 := by
    rw [sq, ← zpow_add_two, ← zpow_add_two, show -32 - v + (-32 - v) + 2 * v = -64 by ring]
    norm_num
  rw [← mul_one_div, ← hexp]
  push_cast
  ring

/-- The root of the integer quotient, in the unit of the reciprocal root, is an answer that R195 allows. -/
theorem isReciprocalRoot_encodeReal {d : ℕ} (hd : 2 ^ 23 ≤ d) (hd' : d ≤ 2 ^ 25) {v : ℤ} (hv : -75 ≤ v) (hv' : v ≤ 52) :
    IsReciprocalRoot (d * 2 ^ (2 * v)) (encodeReal .f32 false (isqrt (2 ^ 64 / d)) (-32 - v)) := by
  obtain ⟨hlow, hhigh, hle, hgt⟩ := sqrt_quotient_bounds hd hd'
  rw [isqrt_eq_sqrt]
  generalize (2 ^ 64 / d).sqrt = s at *
  have hmin : (2 : ℚ) ^ (-126 : ℤ) ≤ s * 2 ^ (-32 - v) :=
    (zpow_le_zpow_right₀ one_le_two (by omega)).trans (zpow_le_mul_zpow hlow _)
  have hmax : (s : ℚ) * 2 ^ (-32 - v) < 2 ^ (128 : ℤ) :=
    (mul_zpow_lt hhigh _).trans_le (zpow_le_zpow_right₀ one_le_two (by omega))
  obtain ⟨hnormal, hreal⟩ := encodeReal_isPosNormal (by omega) hmin hmax
  refine ⟨hnormal, ?_, ?_⟩
  · -- `s / (s + 1)` is at least `1 - 2^-19`
    have hstep : 8189 * (s + 1) ≤ 8192 * s := by omega
    have hnat : 8189 ^ 2 * 2 ^ 64 ≤ s ^ 2 * d * 2 ^ 26 := by
      calc 8189 ^ 2 * 2 ^ 64 ≤ 8189 ^ 2 * ((s + 1) ^ 2 * d) := Nat.mul_le_mul_left _ hgt.le
        _ = (8189 * (s + 1)) ^ 2 * d := by ring
        _ ≤ (8192 * s) ^ 2 * d := Nat.mul_le_mul_right _ (Nat.pow_le_pow_left hstep 2)
        _ = s ^ 2 * d * 2 ^ 26 := by ring
    have hrat : (8189 ^ 2 * 2 ^ 64 : ℚ) ≤ (s ^ 2 * d : ℕ) * 2 ^ 26 := by exact_mod_cast hnat
    rw [hreal, sq_root_mul_eq, div_mul_eq_mul_div, le_div_iff₀ (by positivity)]
    exact hrat
  · have hrat : ((s ^ 2 * d : ℕ) : ℚ) ≤ 2 ^ 64 := by exact_mod_cast hle
    rw [hreal, sq_root_mul_eq, div_mul_eq_mul_div, div_le_iff₀ (by positivity)]
    linarith

/-- The answer that stands in is one that R195 allows: the unit's exponent is made even first. -/
theorem isReciprocalRoot_rsqrtFallback {x : BitVec 32} (hx : isPosNormal x = true) :
    IsReciprocalRoot |realOf .f32 x| (rsqrtFallback x) := by
  obtain ⟨hsig, hsig'⟩ := sig_bounds_of_isPosNormal hx
  obtain ⟨hunit, hunit'⟩ := unitExp_bounds_of_isPosNormal hx
  rw [abs_realOf]
  unfold rsqrtFallback
  simp only
  split
  · rename_i heven
    have h := isReciprocalRoot_encodeReal hsig (by omega) (v := unitExp .f32 x / 2) (by omega) (by omega)
    rwa [show 2 * (unitExp .f32 x / 2) = unitExp .f32 x by omega] at h
  · rename_i hodd
    have h := isReciprocalRoot_encodeReal (d := 2 * sig .f32 x) (by omega) (by omega) (v := (unitExp .f32 x - 1) / 2) (by omega)
      (by omega)
    have hval : (sig .f32 x : ℚ) * 2 ^ unitExp .f32 x = (2 * sig .f32 x : ℕ) * 2 ^ (2 * ((unitExp .f32 x - 1) / 2)) := by
      rw [show unitExp .f32 x = 1 + 2 * ((unitExp .f32 x - 1) / 2) by omega, zpow_add_two, zpow_one,
        show (1 + 2 * ((unitExp .f32 x - 1) / 2) - 1) / 2 = (unitExp .f32 x - 1) / 2 by omega]
      push_cast
      ring
    rwa [hval]

/-- RSQRT32 has R195's properties, whatever the free function answers. -/
theorem isReciprocalRoot_rsqrt32 {x : BitVec 32} (hx : isPosNormal x = true) : IsReciprocalRoot |realOf .f32 x| (rsqrt32 x) := by
  unfold rsqrt32
  split
  · rename_i hallowed
    exact isReciprocalRoot_of_rsqrtAllowed hallowed
  · exact isReciprocalRoot_rsqrtFallback hx

/-! ### The reciprocal square root, case by case -/

theorem rsqrtLane_of_isNaN {b : BitVec 32} (h : isNaN .f32 b = true) : rsqrtLane b = quiet .f32 b := if_pos h

theorem rsqrtLane_of_isZero_or_isDenormal {b : BitVec 32} (h : isZero .f32 b = true ∨ isDenormal .f32 b = true) :
    rsqrtLane b = infOf .f32 (sign .f32 b) := by
  simp [rsqrtLane, isNaN_of_isZero_or_isDenormal h, h]

theorem rsqrtLane_of_posInf {b : BitVec 32} (h : isInf .f32 b = true) (hs : sign .f32 b = false) : rsqrtLane b = 0#32 := by
  simp [rsqrtLane, isNaN_of_isInf h, isZero_of_isInf h, isDenormal_of_isInf h, h, hs, zeroOf]

theorem rsqrtLane_of_negative {b : BitVec 32} (hnan : isNaN .f32 b = false) (hz : isZero .f32 b = false)
    (hd : isDenormal .f32 b = false) (hs : sign .f32 b = true) : rsqrtLane b = 0xFFC00000#32 := by
  simp [rsqrtLane, hnan, hz, hd, hs, defaultNaN]

theorem rsqrtLane_of_isPosNormal {b : BitVec 32} (h : isPosNormal b = true) : rsqrtLane b = rsqrt32 b := by
  obtain ⟨hs, hexp, hfin⟩ := isPosNormal_iff.1 h
  obtain ⟨hz, hd⟩ := expField_ne_zero_iff.1 hexp
  simp [rsqrtLane, isNaN_of_isFinite hfin, hz, hd, hs, isInf_of_isFinite hfin]

/-- Settles O52: the special cases are branches of the lane, and on a positive normal number the answer is one that R195 allows. -/
theorem reciprocalRootBound : Obligations.ReciprocalRootBound := by
  intro b
  refine ⟨rsqrtLane_of_isNaN, rsqrtLane_of_isZero_or_isDenormal, rsqrtLane_of_posInf, rsqrtLane_of_negative,
    fun hfin hz hd hs => ?_⟩
  intro x r u
  have hb : isPosNormal b = true := isPosNormal_iff.2 ⟨hs, expField_ne_zero_iff.2 ⟨hz, hd⟩, hfin⟩
  have hroot := isReciprocalRoot_rsqrt32 hb
  rw [← rsqrtLane_of_isPosNormal hb, abs_of_pos (realOf_pos_of_isPosNormal hb)] at hroot
  obtain ⟨hnormal, hge, hle⟩ := hroot
  have hu : u = 3 / 8192 := by norm_num [u]
  refine ⟨hnormal, ?_, ?_⟩
  · rw [hu]
    linarith
  · rw [hu]
    linarith

end Sys2Proof.Machine

/-!
PROOF. The sign test (spec/48_test.md R204 to R207): what each condition flag says of the operands' sign bits, then the call of both
forms, which reports no flag and writes no register (R93), and so commits the condition flags whatever MXCSR holds.
-/

namespace Sys2Proof.Machine

/-- The sign bit of a pattern is its top bit (R58). -/
theorem sign_eq_msb (f : Fmt) (x : BitVec f.w) : sign f x = x.msb := (BitVec.msb_eq_getLsbD_last x).symm

/-- ZF of a sign test: in no lane are both signs set (R204). -/
theorem testSigns_zf_iff (f : Fmt) (a b : VecWord) (n : Nat) :
    (testSigns f a b n).1 = true ↔ ∀ i < n, ¬((lane f a i).msb = true ∧ (lane f b i).msb = true) := by
  simp only [testSigns, sign_eq_msb, List.all_eq_true, List.mem_range]
  exact forall₂_congr fun i _ => not_test Bool.and_eq_true_iff

/-- CF of a sign test: in no lane is operand B's sign set and operand A's clear (R204). -/
theorem testSigns_cf_iff (f : Fmt) (a b : VecWord) (n : Nat) :
    (testSigns f a b n).2 = true ↔ ∀ i < n, ¬((lane f a i).msb = false ∧ (lane f b i).msb = true) := by
  simp only [testSigns, sign_eq_msb, List.all_eq_true, List.mem_range]
  exact forall₂_congr fun i _ => not_test (and_test (Bool.not_eq_true' _).to_iff Iff.rfl)

/-- A legal sign test writes the condition flags of its sampled operands, and the core moves on (R93, R205, R211). -/
theorem callTest_of_legal {d : Desc} {f : Fmt} {s : State} (h : refuseReason s.cfg d = none) :
    callTest d f s = .next { s with
      cond := { zf := (testSigns f (s.sample d).a (s.sample d).b (activeLanes f d.vl)).1
                cf := (testSigns f (s.sample d).a (s.sample d).b (activeLanes f d.vl)).2
                oflag := false, sf := false, af := false, pf := false }
      inputs := s.inputs.tail } :=
  callTest_eq_next.2 ⟨h, (commit_of_ccv (o := blockTest d f (s.sample d)) rfl rfl rfl).symm⟩

/-- What a sign test of a form that exists answers, in either format (R204, R205). -/
theorem signTest_result {s : State} {dbl : Bool} {vl : VLen} {src1 : VReg} {src2 : Src} (f : Fmt) (hvl : vl ≠ .v512)
    (ha : VReg.low src1 = true) (hb : src2.low = true) :
    ∃ zf cf : Bool,
      callTest (.nonLegacy .test false dbl vl .plain src1 src1 src2 0) f s =
          .next { s with
                  cond := { zf := zf, cf := cf, oflag := false, sf := false, af := false, pf := false }
                  inputs := s.inputs.tail } ∧
        (zf = true ↔ ∀ i < VLen.lanes f vl,
          ¬((lane f (s.readX src1) i).msb = true ∧ (lane f (s.operandB src2) i).msb = true)) ∧
        (cf = true ↔ ∀ i < VLen.lanes f vl,
          ¬((lane f (s.readX src1) i).msb = false ∧ (lane f (s.operandB src2) i).msb = true)) := by
  have hshape : nonLegacyShape .test false dbl vl .plain = true := nonLegacyShape_vexPacked (Bool.and_false dbl) hvl
  have hlegal := legal_vex s.cfg hshape (.inl rfl) hvl ha ha hb (.inl rfl) (.inr rfl)
  refine ⟨_, _, callTest_of_legal hlegal, ?_⟩
  rw [sample_b s (.nonLegacy .test false dbl vl .plain src1 src1 src2 0) src2 rfl rfl, ← activeLanes_code]
  exact ⟨testSigns_zf_iff f _ _ _, testSigns_cf_iff f _ _ _⟩

/-- Settles O25: each form is one sign test, in its format. -/
theorem signTestResult : Obligations.SignTestResult := by
  simp only [Obligations.SignTestResult, List.forall_mem_cons]
  refine ⟨?_, ?_, nofun⟩
  · exact fun s vl src1 src2 hvl ha hb => signTest_result .f32 hvl ha hb
  · exact fun s vl src1 src2 hvl ha hb => signTest_result .f64 hvl ha hb

end Sys2Proof.Machine

/-!
PROOF. Taking the exception or completing, and RESET and INIT (spec/60_exceptions.md R208, R211, R212;
spec/70_reset_and_hazards.md R226).
-/

namespace Sys2Proof.Machine

/-! ### Completing, or taking the exception -/

/-- Of a set with an unmasked flag the core records an unmasked flag: P_CORE_FILTER drops OE, UE and PE only beside an unmasked flag
that stays (R211). -/
theorem recorded_unmasked (s : State) {fl : FlagSet} (h : fl &&& ~~~s.masks ≠ 0) :
    recorded s.cfg s.mxcsr fl &&& ~~~s.masks ≠ 0 := by
  have hun : unmasked s.mxcsr fl = fl &&& ~~~s.masks := rfl
  unfold recorded
  split
  next hfilter =>
    obtain ⟨hlow, -⟩ := Bool.and_eq_true_iff.1 hfilter
    rw [BitVec.and_assoc, BitVec.and_comm 0b000111, ← BitVec.and_assoc, ← hun]
    exact bne_iff_ne.1 hlow
  next => exact h

/-- Settles O11: an instruction commits one call, which completes if every flag it reports is masked and else records an unmasked
flag and writes nothing else. -/
theorem completesOrTakesException : Obligations.CompletesOrTakesException := by
  intro i s t h
  obtain ⟨-, o, n, rfl⟩ := exec_next h
  by_cases hmask : unmasked s.mxcsr o.flags = 0
  · left
    rw [commit_of_masked (s := { s with draws := n }) hmask]
    cases o.we <;> rfl
  · right
    rw [commit_of_unmasked (s := { s with draws := n }) hmask]
    exact ⟨rfl, rfl, rfl, rfl, rfl, _, recorded_unmasked { s with draws := n } hmask, rfl⟩

/-- An instruction with a legal descriptor commits a call, the counter of free values apart (R45, R94). -/
theorem exec_of_legal {i : Instr} {s : State} (h : refuseReason s.cfg i.desc = none) :
    ∃ o n, exec i s = .next (commit i.desc o { s with draws := n }) := by
  obtain ⟨f, op, he⟩ | ⟨-, f, op, he⟩ | ⟨-, f, he⟩ := exec_cases i s
  · exact ⟨_, s.draws, he.trans (call_of_legal h)⟩
  · exact ⟨_, _, he.trans (call_of_legal (s := { s with draws := s.draws + drawsPerCall }) h)⟩
  · exact ⟨_, s.draws, he.trans (callTest_eq_next.2 ⟨h, rfl⟩)⟩

/-- With every exception masked the commit of a call takes none (R208, R211). -/
theorem commit_traps_of_allMasked {s : State} (h : s.AllMasked) (d : Desc) (o : CallOut) : (commit d o s).traps = s.traps := by
  rw [commit_of_masked (masked_of_allMasked h o.flags)]
  cases o.we <;> rfl

/-- Settles O12: the descriptor is legal, so the instruction commits a call, and no flag of that call is unmasked. -/
theorem maskedCallsComplete : Obligations.MaskedCallsComplete := by
  intro i s hwf hfits hmask
  obtain ⟨o, n, he⟩ := exec_of_legal (legal_of_wellFormed i s.cfg hwf hfits)
  obtain ⟨-, -, hinputs, -⟩ := commit_frame i.desc o { s with draws := n }
  exact ⟨_, he, commit_traps_of_allMasked (s := { s with draws := n }) hmask i.desc o, hinputs⟩

/-! ### RESET and INIT -/

theorem resetWith_readX (p : Params) (r : VReg) : (State.resetWith p).readX r = VecWord.zero := Vector.getElem_replicate _

theorem resetWith_readK (p : Params) (r : KReg) : (State.resetWith p).readK r = 0 := Vector.getElem_replicate _

/-- Settles O30: RESET as an input leaves the register values of the first state, and INIT writes none of them. -/
theorem resetAndInitValues : Obligations.ResetAndInitValues := by
  refine ⟨fun s rest hin => ?_, fun s rest hin => ?_, fun p => ?_⟩
  · exact ⟨corePowerOn (complete s), step_action hin nofun, rfl, resetWith_readX s.cfg, resetWith_readK s.cfg, rfl, rfl, rfl⟩
  · exact ⟨coreInit (complete s), step_action hin nofun, rfl, fun _ => rfl, fun _ => rfl, rfl, rfl, rfl⟩
  · exact ⟨rfl, resetWith_readX p, resetWith_readK p, rfl, rfl⟩

end Sys2Proof.Machine

/-!
PROOF. Which flags a primitive can set (spec/60_exceptions.md R209): each branch of a primitive sets the flags of its own rule, and a
rounding sets OE, UE and PE alone, of which the square root leaves PE.
-/

namespace Sys2Proof.Machine

/-! ### Sets without the flags of a mask -/

/-- No flag of `m` is in the set. -/
def Avoids (m fl : FlagSet) : Prop := fl &&& m = 0

section Avoids

variable {m : FlagSet}

theorem avoids_zero : Avoids m 0 := BitVec.zero_and

theorem Avoids.or {x y : FlagSet} (hx : Avoids m x) (hy : Avoids m y) : Avoids m (x ||| y) := by
  have h : (x ||| y) &&& m = (x &&& m) ||| (y &&& m) := by
    ext b hb
    simp [Bool.and_or_distrib_right]
  rw [Avoids, h, hx, hy]
  rfl

theorem Avoids.flagIf {fl : FlagSet} (h : Avoids m fl) (c : Bool) : Avoids m (flagIf c fl) := by
  cases c
  · exact avoids_zero
  · exact h

theorem avoids_nan1 (h : Avoids m flagIE) (f : Fmt) (a : BitVec f.w) : Avoids m (nan1 f a).flags := h.flagIf _

theorem avoids_nan2 (h : Avoids m flagIE) (f : Fmt) (a b : BitVec f.w) : Avoids m (nan2 f a b).flags := h.flagIf _

theorem avoids_invalid (h : Avoids m flagIE) (f : Fmt) {fl : FlagSet} (hfl : Avoids m fl) : Avoids m (invalid f fl).flags :=
  hfl.or h

theorem avoids_deFlag (h : Avoids m flagDE) (f : Fmt) (a b : BitVec f.w) : Avoids m (deFlag f a b) := h.flagIf _

end Avoids

/-! ### ZE -/

theorem avoidsZE_IE : Avoids flagZE flagIE := rfl

theorem avoidsZE_DE : Avoids flagZE flagDE := rfl

theorem avoidsZE_roundPackWith (p : Params) (f : Fmt) (st : Status) {fl : FlagSet} (hfl : Avoids flagZE fl) (s : Bool) (v : Mag) :
    Avoids flagZE (roundPackWith p f st fl s v).flags := by
  have hround : Avoids flagZE (roundPack p f st s v).flags := by
    have hZE : flagZE = 0b000111 &&& flagZE := rfl
    rw [Avoids, hZE, ← BitVec.and_assoc, roundPack_flags_low]
    exact avoids_zero
  exact hfl.or hround

theorem avoidsZE_addNumbers (p : Params) (f : Fmt) (st : Status) (a b : BitVec f.w) :
    Avoids flagZE (addNumbers p f st a b).flags := by
  have hde : Avoids flagZE (deFlag f a b) := avoids_deFlag avoidsZE_DE f a b
  unfold addNumbers
  dsimp only
  split
  · split
    · exact hde
    · exact avoids_invalid avoidsZE_IE f hde
  split
  · exact hde
  split
  · exact hde
  split
  · exact hde
  · exact avoidsZE_roundPackWith p f st hde _ _

theorem avoidsZE_addW (p : Params) (f : Fmt) (st : Status) (a b : BitVec f.w) : Avoids flagZE (addW p f st a b).flags := by
  unfold addW
  dsimp only
  split
  · exact avoids_nan2 avoidsZE_IE f _ _
  · exact avoidsZE_addNumbers p f st _ _

theorem avoidsZE_subW (p : Params) (f : Fmt) (st : Status) (a b : BitVec f.w) : Avoids flagZE (subW p f st a b).flags := by
  unfold subW
  dsimp only
  split
  · exact avoids_nan2 avoidsZE_IE f _ _
  · exact avoidsZE_addNumbers p f st _ _

theorem avoidsZE_mulW (p : Params) (f : Fmt) (st : Status) (a b : BitVec f.w) : Avoids flagZE (mulW p f st a b).flags := by
  have hde : Avoids flagZE (deFlag f (dazW f st a) (dazW f st b)) := avoids_deFlag avoidsZE_DE f _ _
  unfold mulW
  dsimp only
  split
  · exact avoids_nan2 avoidsZE_IE f _ _
  split
  · exact avoids_invalid avoidsZE_IE f hde
  split
  · exact hde
  split
  · exact hde
  · exact avoidsZE_roundPackWith p f st hde _ _

theorem avoidsZE_scalefW (d : BitVec 64) (p : Params) (f : Fmt) (st : Status) (a b : BitVec f.w) :
    Avoids flagZE (scalefW d p f st a b).flags := by
  have hde := (avoidsZE_DE.flagIf (isDenormal f (dazW f st a))).or
    (avoidsZE_DE.flagIf (isDenormal f (dazW f st b) && p.scalefDeB))
  unfold scalefW
  dsimp only
  split
  · split
    · exact avoids_zero
    · exact avoids_nan2 avoidsZE_IE f _ _
  split
  · split
    · exact avoids_invalid avoidsZE_IE f hde
    · exact hde
  split
  · split
    · exact avoids_invalid avoidsZE_IE f hde
    · exact hde
  split
  · exact hde
  · exact avoidsZE_roundPackWith p f st hde _ _

/-! ### Minimum, maximum and compare -/

/-- The selection sets IE beside a NaN and DE beside a denormal, and no other flag (R133). -/
theorem avoids_selectW {m : FlagSet} (hIE : Avoids m flagIE) (hDE : Avoids m flagDE) (f : Fmt) (st : Status)
    (pick : ℤ → ℤ → Bool) (a b : BitVec f.w) : Avoids m (selectW f st pick a b).flags := by
  unfold selectW
  dsimp only
  split
  · exact hIE
  · exact avoids_deFlag hDE f _ _

/-- The compare sets IE beside a NaN and DE beside a denormal, and no other flag (R75). -/
theorem avoids_cmpW {m : FlagSet} (hIE : Avoids m flagIE) (hDE : Avoids m flagDE) (c : BitVec 5) (p : Params) (f : Fmt)
    (st : Status) (a b : BitVec f.w) : Avoids m (cmpW c p f st a b).flags := by
  unfold cmpW
  dsimp only
  split
  · exact hIE.flagIf _
  · exact avoids_deFlag hDE f _ _

/-! ### Square root and rounding -/

/-- The root of a positive finite number is rounded without overflow, whatever the mode (R134). -/
theorem sqrtMag_not_roundsUpTo {f : Fmt} {b : BitVec f.w} (m : RoundMode) (hfin : isFinite f b = true) (hz : isZero f b = false)
    (hs : sign f b = false) : ¬RoundsUpToReal f m false ((2 : ℝ) ^ (f.emax + 1)) (sqrtMag f b).real := by
  obtain ⟨-, hhigh⟩ := sqrt_bounds hfin hz hs
  obtain ⟨-, hulp, -⟩ := ulp_pos_lt f
  refine RoundsUpToReal.not_of_le (two_zpow_pos _) ?_
  calc (sqrtMag f b).real ≤ (2 : ℝ) ^ f.emax := (sqrtMag_real hs).trans_le hhigh
    _ ≤ _ := by
      rw [zpow_add_one₀ two_ne_zero]
      nlinarith [two_zpow_pos f.emax]

/-- The rounding of the root of a positive finite number sets no flag but PE, since the root is in the normal range (R134). -/
theorem roundPack_sqrtMag_flags (p : Params) {f : Fmt} (st : Status) {b : BitVec f.w} (hfin : isFinite f b = true)
    (hz : isZero f b = false) (hs : sign f b = false) :
    ∃ exact : Bool, (roundPack p f st false (sqrtMag f b)).flags = flagIf (!exact) flagPE := by
  have hpos := sqrtMag_pos hz
  have htiny : ¬TinyReal p f st.rc false (sqrtMag f b).real := fun htiny =>
    absurd htiny.lt (not_lt.2 ((sqrt_bounds hfin hz hs).1.trans_eq (sqrtMag_real hs).symm))
  have hnot : roundTiny p f st.rc false (sqrtMag f b) = false := by
    rw [← Bool.not_eq_true, roundTiny_iff hpos]
    exact htiny
  obtain ⟨-, -, exact, -, -, hflags⟩ := roundPack_of_rounded (p := p) (st := { st with ftz := false }) hpos
    (sqrtMag_not_roundsUpTo st.rc hfin hz hs) rfl
  refine ⟨exact, ?_⟩
  rw [roundPack_of_not_tiny hpos htiny, hflags, hnot]
  exact BitVec.or_zero

/-- The square root sets IE, DE and PE alone: only a positive finite operand is rounded, and its root sets no flag but PE (R134). -/
theorem avoids_sqrtW {m : FlagSet} (hIE : Avoids m flagIE) (hDE : Avoids m flagDE) (hPE : Avoids m flagPE) (p : Params)
    (f : Fmt) (st : Status) (b : BitVec f.w) : Avoids m (sqrtW p f st b).flags := by
  unfold sqrtW
  dsimp only
  by_cases hnan : isNaN f (dazW f st b) = true
  · rw [if_pos hnan]
    exact avoids_nan1 hIE f _
  by_cases hzero : isZero f (dazW f st b) = true
  · rw [if_neg hnan, if_pos hzero]
    exact avoids_zero
  by_cases hsign : sign f (dazW f st b) = true
  · rw [if_neg hnan, if_neg hzero, if_pos hsign]
    exact avoids_invalid hIE f (hDE.flagIf _)
  rw [if_neg hnan, if_neg hzero, if_neg hsign]
  by_cases hinf : isInf f (dazW f st b) = true
  · rw [if_pos hinf]
    exact hDE.flagIf _
  · rw [if_neg hinf]
    simp only [Bool.not_eq_true] at hnan hzero hsign hinf
    obtain ⟨exact, hflags⟩ := roundPack_sqrtMag_flags p st (isFinite_of_not_isInf hnan hinf) hzero hsign
    exact (hDE.flagIf _).or (hflags ▸ hPE.flagIf _)

/-- The rounding to integral sets IE beside a signalling NaN and PE by an inexact result, and no other flag (R164). -/
theorem avoids_roundW {m : FlagSet} (hIE : Avoids m flagIE) (hPE : Avoids m flagPE) (p : Params) (f : Fmt) (st : Status)
    (b : BitVec f.w) : Avoids m (roundW p f st b).flags := by
  unfold roundW
  generalize (if isDenormal f b && p.roundDaz then dazW f st b else b) = x
  dsimp only
  split
  · exact avoids_nan1 hIE f _
  split
  · exact avoids_zero
  · exact hPE.flagIf _

/-- Settles O42: no branch of a primitive sets a flag of the mask. -/
theorem flagsEachPrimitiveSets : Obligations.FlagsEachPrimitiveSets := by
  intro c d p f st a b
  refine ⟨?_, ?_, ?_, ?_⟩
  · simp only [List.forall_mem_cons]
    exact ⟨avoidsZE_addW p f st a b, avoidsZE_subW p f st a b, avoidsZE_mulW p f st a b, avoidsZE_scalefW d p f st a b, nofun⟩
  · have hIE : Avoids 0b111100 flagIE := rfl
    have hDE : Avoids 0b111100 flagDE := rfl
    simp only [List.forall_mem_cons]
    exact ⟨avoids_selectW hIE hDE f st _ a b, avoids_selectW hIE hDE f st _ a b, avoids_cmpW hIE hDE c p f st a b, nofun⟩
  · have hIE : Avoids 0b011100 flagIE := rfl
    have hDE : Avoids 0b011100 flagDE := rfl
    have hPE : Avoids 0b011100 flagPE := rfl
    exact avoids_sqrtW hIE hDE hPE p f st b
  · have hIE : Avoids 0b011110 flagIE := rfl
    have hPE : Avoids 0b011110 flagPE := rfl
    exact avoids_roundW hIE hPE p f st b

end Sys2Proof.Machine
